-- ==== Sys2Proof/Word.lean ====
section
/-! DEFINITION. The word types of the MOG CORE (00_scope.md R7, R9, R10, R17; 10_state.md R32, R39).
Bit 0 is the least significant bit of every value, and every value is unsigned (R9). -/

namespace Sys2Proof

/-- A 32-bit bus word: the one width of a host access (R75) and of a command word (R110). -/
abbrev Word := BitVec 32

/-- An opcode byte, bits 7:0 of a command word (R110). -/
abbrev Byte := BitVec 8

/-- A vector: 24 bits, bit i is 1 exactly when point i is in the set (R10). -/
abbrev Vec := BitVec 24

/-- A point, 0-23 (R7, R10). -/
abbrev Point := Fin 24

/-- A GF(4) symbol on its 2-bit code: 0 is `0b00`, 1 is `0b01`, ω is `0b10`, ω̄ is `0b11` (R17, R150). -/
abbrev Sym := BitVec 2

/-- A byte offset into the 4096-byte register window (R70). -/
abbrev Offset := BitVec 12

/-- A permutation table: 24 entries of 5 bits, entry i the image of point i (R39, R280). -/
abbrev Perm := Vector (BitVec 5) 24

/-- The 24 points in increasing order. -/
abbrev points : List Point := List.finRange 24

end Sys2Proof
end

