-- ==== Sys2Proof/Syntax.lean ====
section
/-! DEFINITION. The 25 commands of the MOG-CORE command set (30_encoding.md R114; spec/opcode_table.json), one constructor
a row. Operands stand in the order D, A, B, IMM (R118). -/

namespace Sys2Proof

/-- A vector register index, V0-V7 (R111 'vector index'): the type admits no other value, so `v8` cannot be written. -/
abbrev VReg := Fin 8

/-- A permutation register index, P0-P3 (R111 'permutation index'). -/
abbrev PReg := Fin 4

/-- A command. An immediate that the spec treats as bits (a data word, a packed hexacode word) is a `BitVec 12`; one it
treats as a number (a pattern number, a point, an index, a state code, a generator number) is a `Nat`, whose range
0-4095 (R111) is WellFormed's check. -/
inductive Instr where
  /-- `NOP` (R240) -/
  | nop
  /-- `HEXL #p` (R165) -/
  | hexl (p : Nat)
  /-- `HEXV #h` (R166) -/
  | hexv (h : BitVec 12)
  /-- `HEXS va` (R167) -/
  | hexs (a : VReg)
  /-- `ENC vd, #data` (R190) -/
  | enc (d : VReg) (data : BitVec 12)
  /-- `SYN va` (R191) -/
  | syn (a : VReg)
  /-- `ISCW va` (R192) -/
  | iscw (a : VReg)
  /-- `DEC vd, va` (R193) -/
  | dec (d a : VReg)
  /-- `CMPL vd, va` (R220) -/
  | cmpl (d a : VReg)
  /-- `OCTF va` (R221) -/
  | octf (a : VReg)
  /-- `OCTR vd, #k` (R222) -/
  | octr (d : VReg) (k : Nat)
  /-- `SEL #pt` (R241) -/
  | sel (pt : Nat)
  /-- `DESEL #pt` (R242) -/
  | desel (pt : Nat)
  /-- `GRST` (R243) -/
  | grst
  /-- `GCMPL vd` (R244) -/
  | gcmpl (d : VReg)
  /-- `GDEC vd` (R245) -/
  | gdec (d : VReg)
  /-- `GMASK vd, #state` (R246) -/
  | gmask (d : VReg) (k : Nat)
  /-- `GAPPLY g` (R247) -/
  | gapply (n : Nat)
  /-- `GPERM pa` (R248) -/
  | gperm (a : PReg)
  /-- `PGEN pd, g` (R290) -/
  | pgen (d : PReg) (n : Nat)
  /-- `PID pd` (R291) -/
  | pid (d : PReg)
  /-- `PCOMP pd, pa, pb` (R292) -/
  | pcomp (d a b : PReg)
  /-- `PINV pd, pa` (R293) -/
  | pinv (d a : PReg)
  /-- `PAPV vd, pa, vb` (R294) -/
  | papv (d : VReg) (a : PReg) (b : VReg)
  /-- `PTEST pa` (R295) -/
  | ptest (a : PReg)
  deriving DecidableEq, Repr

end Sys2Proof
end

