-- ==== Sys2Proof/WellFormed.lean ====
section
/-! DEFINITION. Which terms of `Instr` have an encoding (30_encoding.md R111, R118): 'An operand out of range for its kind
(e.g. `v8`, `p4`, or `#4096`) has no encoding'. Register operands and bit immediates are in range by their types
(`Fin 8`, `Fin 4`, `BitVec 12`); a number immediate must be below 4096. -/

namespace Sys2Proof

/-- A number fits the 12-bit IMM field (R110, R111). -/
def immFits (n : Nat) : Bool := decide (n < 4096)

/-- The term has an encoding (R118). -/
def Instr.wellFormed : Instr → Bool
  | .nop => true
  | .hexl p => immFits p
  | .hexv _ => true
  | .hexs _ => true
  | .enc _ _ => true
  | .syn _ => true
  | .iscw _ => true
  | .dec _ _ => true
  | .cmpl _ _ => true
  | .octf _ => true
  | .octr _ k => immFits k
  | .sel pt => immFits pt
  | .desel pt => immFits pt
  | .grst => true
  | .gcmpl _ => true
  | .gdec _ => true
  | .gmask _ k => immFits k
  | .gapply n => immFits n
  | .gperm _ => true
  | .pgen _ n => immFits n
  | .pid _ => true
  | .pcomp _ _ _ => true
  | .pinv _ _ => true
  | .papv _ _ _ => true
  | .ptest _ => true

end Sys2Proof
end

