-- ==== Sys2Proof/Decode.lean ====
section
/-! DEFINITION. The command word (30_encoding.md R110-R119): its fields, the twelve formats with their masks, the opcode map,
the total decoder and the encoder (R118 'the assembled word'). -/

namespace Sys2Proof

/-- `OP = w[7:0]` (R110). -/
def opField (w : Word) : Byte := w.extractLsb' 0 8
/-- `D = w[11:8]` (R110). -/
def dField (w : Word) : BitVec 4 := w.extractLsb' 8 4
/-- `A = w[15:12]` (R110). -/
def aField (w : Word) : BitVec 4 := w.extractLsb' 12 4
/-- `B = w[19:16]` (R110). -/
def bField (w : Word) : BitVec 4 := w.extractLsb' 16 4
/-- `IMM = w[31:20]` (R110). -/
def immField (w : Word) : BitVec 12 := w.extractLsb' 20 12

/-- A field used as a vector index (R111): once the format's mask has fixed bit 3 to 0 it is the field's value. -/
def vecIndex (f : BitVec 4) : VReg := Fin.ofNat 8 f.toNat
/-- A field used as a permutation index (R111): once the mask has fixed bits 3:2 to 0 it is the field's value. -/
def permIndex (f : BitVec 4) : PReg := Fin.ofNat 4 f.toNat

/-- The formats of R112: which fields are used, and as what. -/
inductive Format where
  | n | i | va | vdi | vda | vd | pa | pdi | pd | pdab | pda | vpv
  deriving DecidableEq, Repr

/-- The set of bits a legal word of the format fixes (R112). -/
def Format.mask : Format → Word
  | .n    => 0xFFFFFFFF#32
  | .i    => 0x000FFFFF#32
  | .va   => 0xFFFF8FFF#32
  | .vdi  => 0x000FF8FF#32
  | .vda  => 0xFFFF88FF#32
  | .vd   => 0xFFFFF8FF#32
  | .pa   => 0xFFFFCFFF#32
  | .pdi  => 0x000FFCFF#32
  | .pd   => 0xFFFFFCFF#32
  | .pdab => 0xFFFCCCFF#32
  | .pda  => 0xFFFFCCFF#32
  | .vpv  => 0xFFF8C8FF#32

/-- `match`: the opcode in bits 7:0 with every other fixed bit zero (R112). -/
def pattern (op : Byte) : Word := op.setWidth 32

/-- The opcode map (R114). -/
def Instr.opcode : Instr → Byte
  | .nop         => 0x00#8
  | .hexl _      => 0x01#8
  | .hexv _      => 0x02#8
  | .hexs _      => 0x03#8
  | .enc _ _     => 0x10#8
  | .syn _       => 0x11#8
  | .iscw _      => 0x12#8
  | .dec _ _     => 0x13#8
  | .cmpl _ _    => 0x20#8
  | .octf _      => 0x21#8
  | .octr _ _    => 0x22#8
  | .sel _       => 0x30#8
  | .desel _     => 0x31#8
  | .grst        => 0x32#8
  | .gcmpl _     => 0x33#8
  | .gdec _      => 0x34#8
  | .gmask _ _   => 0x35#8
  | .gapply _    => 0x36#8
  | .gperm _     => 0x37#8
  | .pgen _ _    => 0x40#8
  | .pid _       => 0x41#8
  | .pcomp _ _ _ => 0x42#8
  | .pinv _ _    => 0x43#8
  | .papv _ _ _  => 0x44#8
  | .ptest _     => 0x45#8

/-- The format column of R114. -/
def Instr.format : Instr → Format
  | .nop         => .n
  | .hexl _      => .i
  | .hexv _      => .i
  | .hexs _      => .va
  | .enc _ _     => .vdi
  | .syn _       => .va
  | .iscw _      => .va
  | .dec _ _     => .vda
  | .cmpl _ _    => .vda
  | .octf _      => .va
  | .octr _ _    => .vdi
  | .sel _       => .i
  | .desel _     => .i
  | .grst        => .n
  | .gcmpl _     => .vd
  | .gdec _      => .vd
  | .gmask _ _   => .vdi
  | .gapply _    => .i
  | .gperm _     => .pa
  | .pgen _ _    => .pdi
  | .pid _       => .pd
  | .pcomp _ _ _ => .pdab
  | .pinv _ _    => .pda
  | .papv _ _ _  => .vpv
  | .ptest _     => .pa

/-- `i` where the word meets the format's mask, `(w & mask) == match` (R112, R115); illegal (`none`) where it does not. -/
def legalAs (f : Format) (w : Word) (i : Instr) : Option Instr :=
  if w &&& f.mask = pattern (opField w) then some i else none

/-- The decoder (R114-R116): total, `none` is an illegal word. The opcode selects the row, then the row's format is checked. -/
def decode (w : Word) : Option Instr :=
  match opField w with
  | 0x00#8 => legalAs .n w .nop
  | 0x01#8 => legalAs .i w (.hexl (immField w).toNat)
  | 0x02#8 => legalAs .i w (.hexv (immField w))
  | 0x03#8 => legalAs .va w (.hexs (vecIndex (aField w)))
  | 0x10#8 => legalAs .vdi w (.enc (vecIndex (dField w)) (immField w))
  | 0x11#8 => legalAs .va w (.syn (vecIndex (aField w)))
  | 0x12#8 => legalAs .va w (.iscw (vecIndex (aField w)))
  | 0x13#8 => legalAs .vda w (.dec (vecIndex (dField w)) (vecIndex (aField w)))
  | 0x20#8 => legalAs .vda w (.cmpl (vecIndex (dField w)) (vecIndex (aField w)))
  | 0x21#8 => legalAs .va w (.octf (vecIndex (aField w)))
  | 0x22#8 => legalAs .vdi w (.octr (vecIndex (dField w)) (immField w).toNat)
  | 0x30#8 => legalAs .i w (.sel (immField w).toNat)
  | 0x31#8 => legalAs .i w (.desel (immField w).toNat)
  | 0x32#8 => legalAs .n w .grst
  | 0x33#8 => legalAs .vd w (.gcmpl (vecIndex (dField w)))
  | 0x34#8 => legalAs .vd w (.gdec (vecIndex (dField w)))
  | 0x35#8 => legalAs .vdi w (.gmask (vecIndex (dField w)) (immField w).toNat)
  | 0x36#8 => legalAs .i w (.gapply (immField w).toNat)
  | 0x37#8 => legalAs .pa w (.gperm (permIndex (aField w)))
  | 0x40#8 => legalAs .pdi w (.pgen (permIndex (dField w)) (immField w).toNat)
  | 0x41#8 => legalAs .pd w (.pid (permIndex (dField w)))
  | 0x42#8 => legalAs .pdab w (.pcomp (permIndex (dField w)) (permIndex (aField w)) (permIndex (bField w)))
  | 0x43#8 => legalAs .pda w (.pinv (permIndex (dField w)) (permIndex (aField w)))
  | 0x44#8 => legalAs .vpv w (.papv (vecIndex (dField w)) (permIndex (aField w)) (vecIndex (bField w)))
  | 0x45#8 => legalAs .pa w (.ptest (permIndex (aField w)))
  | _      => none

/-- The fields of a word laid side by side as R110 places them, IMM highest. -/
def assemble (imm : BitVec 12) (b a d : BitVec 4) (op : Byte) : Word := imm ++ b ++ a ++ d ++ op

/-- A register index as a field. -/
def regField {n : Nat} (r : Fin n) : BitVec 4 := BitVec.ofNat 4 r.val
/-- A number immediate as the IMM field. -/
def numField (n : Nat) : BitVec 12 := BitVec.ofNat 12 n

/-- The encoder (R118): unused fields are zero. -/
def encode : Instr → Word
  | .nop         => assemble 0 0 0 0 0x00#8
  | .hexl p      => assemble (numField p) 0 0 0 0x01#8
  | .hexv h      => assemble h 0 0 0 0x02#8
  | .hexs a      => assemble 0 0 (regField a) 0 0x03#8
  | .enc d x     => assemble x 0 0 (regField d) 0x10#8
  | .syn a       => assemble 0 0 (regField a) 0 0x11#8
  | .iscw a      => assemble 0 0 (regField a) 0 0x12#8
  | .dec d a     => assemble 0 0 (regField a) (regField d) 0x13#8
  | .cmpl d a    => assemble 0 0 (regField a) (regField d) 0x20#8
  | .octf a      => assemble 0 0 (regField a) 0 0x21#8
  | .octr d k    => assemble (numField k) 0 0 (regField d) 0x22#8
  | .sel pt      => assemble (numField pt) 0 0 0 0x30#8
  | .desel pt    => assemble (numField pt) 0 0 0 0x31#8
  | .grst        => assemble 0 0 0 0 0x32#8
  | .gcmpl d     => assemble 0 0 0 (regField d) 0x33#8
  | .gdec d      => assemble 0 0 0 (regField d) 0x34#8
  | .gmask d k   => assemble (numField k) 0 0 (regField d) 0x35#8
  | .gapply n    => assemble (numField n) 0 0 0 0x36#8
  | .gperm a     => assemble 0 0 (regField a) 0 0x37#8
  | .pgen d n    => assemble (numField n) 0 0 (regField d) 0x40#8
  | .pid d       => assemble 0 0 0 (regField d) 0x41#8
  | .pcomp d a b => assemble 0 (regField b) (regField a) (regField d) 0x42#8
  | .pinv d a    => assemble 0 0 (regField a) (regField d) 0x43#8
  | .papv d a b  => assemble 0 (regField b) (regField a) (regField d) 0x44#8
  | .ptest a     => assemble 0 0 (regField a) 0 0x45#8

/-- The host's question (one word for a table row): the row's `nbits` bits, those above them zero, decoded as the command
word they are. Every row of the table has 32 bits (R110, R117). -/
def decodeTableWord (nbits w : Nat) : Option Instr := decode (BitVec.ofNat 32 (w % 2 ^ nbits))

end Sys2Proof
end

