-- ==== Sys2Proof/Machine/State.lean ====
section
/-! DEFINITION. The state of the MOG CORE and of the host that drives it (10_state.md; 30_encoding.md R120), the machine after
reset (R46), and the reasons a step can stop. Plain data only. -/

namespace Sys2Proof.Machine

/-- The state of one grid cell (R40). -/
inductive Cell where
  | unselected
  | selected
  | highlightedOctad
  | highlightedError
  deriving DecidableEq, Repr

/-- The error kinds a command can raise (R320); their codes are `CmdError.code`. -/
inductive CmdError where
  | invalidPattern
  | noCompletion
  | ambiguousInput
  | unknownGenerator
  | illegalCommand
  deriving DecidableEq, Repr

/-- PEND while BUSY = 1 (R37, R41): the accepted command word, and (the model's own) how many more host steps may come
before its completion (R372; assumption log 1). -/
structure Pending where
  word  : Word
  delay : Nat
  deriving DecidableEq, Repr

/-- One statement of a host program (R120), labels resolved to indexes; a bus access also carries its width in bytes, so
that an access R75 gives no meaning can be written down and refused. `powerReset` is no statement of the host: it is the
platform asserting and releasing the reset input between two host steps (R360; assumption log 5). -/
inductive HostStmt where
  | rd (bytes : Nat) (off : Offset)
  | wr (bytes : Nat) (off : Offset) (value : Word)
  | bnz (reg : Offset) (lo width : Nat) (target : Nat)
  | bz (reg : Offset) (lo width : Nat) (target : Nat)
  | jmp (target : Nat)
  | halt
  | powerReset
  deriving DecidableEq, Repr

/-- Everything the spec gives the machine, and the host beside it. BUSY and PEND have one home: `pend` is `some` exactly
while BUSY = 1 (set together by R37, cleared together by R324 and R46; assumption log 2). -/
structure State where
  /-- V0-V7 (R32) -/
  v       : Vector Vec 8
  /-- P0-P3 (R39) -/
  p       : Vector Perm 4
  /-- SRES (R33) -/
  sres    : Word
  /-- GRID[0..23] (R40) -/
  grid    : Vector Cell 24
  /-- CTRL.IE (R35) -/
  ie      : Bool
  /-- STATUS.DONE (R36) -/
  done    : Bool
  /-- STATUS.OVR (R36) -/
  ovr     : Bool
  /-- STATUS.ERR (R36) -/
  err     : Bool
  /-- STATUS.ERRCODE (R36) -/
  errCode : BitVec 4
  /-- STATUS.LASTOP (R36) -/
  lastOp  : Byte
  /-- STATUS.BUSY and PEND (R36, R37, R41) -/
  pend    : Option Pending
  /-- the host's program (R31, R120) -/
  prog    : List HostStmt
  /-- the index of the host's next statement (R31) -/
  pos     : Nat
  /-- the host variables, by register offset: the last value read (R120); canonical form `varsWf` -/
  vars    : List (Nat × Word)
  /-- the model's own: commands accepted so far, the argument of the free value `Config.latency` -/
  issued  : Nat
  deriving DecidableEq, Repr

/-- The identity permutation: entry j is j (R39, R282). -/
def idPerm : Perm := Vector.ofFn fun j => BitVec.ofNat 5 j.val

/-- The machine after a power-on reset (R46, R360), with no host program loaded yet (assumption log 3). -/
def State.reset : State where
  v       := Vector.replicate 8 0#24
  p       := Vector.replicate 4 idPerm
  sres    := 0#32
  grid    := Vector.replicate 24 .unselected
  ie      := false
  done    := false
  ovr     := false
  err     := false
  errCode := 0#4
  lastOp  := 0x00#8
  pend    := none
  prog    := []
  pos     := 0
  vars    := []
  issued  := 0

/-- No fault exists: 'No condition in this core is treated as fatal/unrecoverable' (R325), 'no access can fault' (D29), and
an error is a completion with a nonzero ERRCODE (R327). So the type has no constructor, which is safe: nothing stops here. -/
inductive Fault where
  deriving DecidableEq, Repr

/-- Why a step has no meaning. -/
inductive Refusal where
  /-- raised by `exec`'s arm of an instruction not modelled yet; no arm raises it now (safe) -/
  | notModelled (mnemonic : String)
  /-- raised by a host access whose width is not 4 bytes: 'This spec gives such an access no meaning, and a model refuses it'
  (R75; U11); safe, since the hardware has no such step -/
  | accessWidth (bytes : Nat)
  /-- raised by a host access at an offset that is not a multiple of 4 (R75; U11); safe, since the hardware has no such step -/
  | misaligned (off : Offset)
  deriving DecidableEq, Repr

end Sys2Proof.Machine
end

