-- ==== Sys2Proof/Machine/Ops.lean ====
section
/-! DEFINITION. The operations every meaning is written over: bit and vector helpers (00_scope.md R10), the named updates of
State, and a command's completion, successful or with an error (R13, R322, R324, R327, R370). -/

namespace Sys2Proof.Machine

/-- How many of bits 0..n-1 of x are 1: the lowest bit, and the count of the rest. -/
def bitCount (x : Nat) : Nat → Nat
  | 0 => 0
  | n + 1 => x % 2 + bitCount (x / 2) n

/-- `popcount(v)`, the weight `wt(v)` (R10, R18). -/
def popcount {n : Nat} (v : BitVec n) : Nat := bitCount v.toNat n

/-- The number whose bits 0..n-1 are f 0 .. f (n-1). -/
def ofBitsNat (f : Nat → Bool) : Nat → Nat
  | 0 => 0
  | n + 1 => ofBitsNat f n + (if f n then 2 ^ n else 0)

/-- The n-bit value with bit i equal to f i. -/
def ofBits (n : Nat) (f : Nat → Bool) : BitVec n := BitVec.ofNat n (ofBitsNat f n)

/-- `δ_i`, the vector with only bit i set (R10). -/
def delta (i : Nat) : Vec := 1#24 <<< i

/-- The ERRCODE of each error kind (R320). -/
def CmdError.code : CmdError → BitVec 4
  | .invalidPattern   => 1#4
  | .noCompletion     => 2#4
  | .ambiguousInput   => 3#4
  | .unknownGenerator => 4#4
  | .illegalCommand   => 5#4

/-- `V[i] <- x` (R12). -/
def State.setV (s : State) (i : Fin 8) (x : Vec) : State := { s with v := s.v.set i x }
/-- `P[i] <- q`, all 24 entries at once (R12). -/
def State.setP (s : State) (i : Fin 4) (q : Perm) : State := { s with p := s.p.set i q }
/-- `SRES <- x` (R12, R33). -/
def State.setSres (s : State) (x : Word) : State := { s with sres := x }
/-- The whole grid at once (R239). -/
def State.setGrid (s : State) (g : Vector Cell 24) : State := { s with grid := g }

/-- STATUS.BUSY (R36): a command is pending. -/
def State.busy (s : State) : Bool := s.pend.isSome

/-- The completion fields (R324), written in one step with the command's results: BUSY and PEND, DONE, ERRCODE, ERR and
LASTOP. OVR is not changed. -/
def State.finish (s : State) (op : Byte) (code : BitVec 4) : State :=
  { s with pend := none, done := true, errCode := code, err := decide (code ≠ 0#4), lastOp := op }

/-- A command that raises (R13, R322, R327): no assignment is committed, and the completion reports the error's code. This is
the core's whole 'trap entry': no control transfer, no saved register, no mode. There is no return (R328): the next CMD
write is accepted (R325). -/
def State.raise (s : State) (op : Byte) (e : CmdError) : State := s.finish op e.code

/-- A command's completion step (R370) from what its pseudocode answered on the committed state s: either the state with all
its assignments made, or the error it raised (R13). -/
def complete (op : Byte) (r : Except CmdError State) (s : State) : Host.Outcome State Fault Refusal :=
  match r with
  | .ok t    => .next (t.finish op 0#4)
  | .error e => .next (s.raise op e)

end Sys2Proof.Machine
end

