-- ==== Sys2Proof/Machine/Rom.lean ====
section
/-! DEFINITION. The constant tables of 20_memory.md R80 that are listings: BASIS (41_golay.md R180), OCTROM (R90) and GENROM
(44_group.md R286). HEXROM and HEXSET are computed from their rules in Machine/Hexacode.lean. No access writes them (R43). -/

namespace Sys2Proof.Machine

/-- BASIS, B[0..11] (R180). -/
def basis : Vector Vec 12 :=
  #v[0x398A01#24, 0x5C2A02#24, 0xEC8204#24, 0xB52208#24, 0xBE0810#24, 0x17A820#24,
     0x670A40#24, 0xC1AA80#24, 0x9AA300#24, 0x6AAC00#24, 0xCF3000#24, 0xF3C000#24]

/-- The information set (R182): data bit k stands at point INFO[k]. -/
def infoSet : Vector Nat 12 := #v[0, 1, 2, 3, 4, 5, 6, 7, 8, 10, 12, 14]

/-- The complement of the information set (R182). -/
def parSet : Vector Nat 12 := #v[9, 11, 13, 15, 16, 17, 18, 19, 20, 21, 22, 23]

/-- Each point beside its column of the check matrix: bit k of point i's column is bit i of B[k] (R184; R191 'A single point in
PAR gives the column of the check matrix, e.g. point 23 gives 0xD9C'). -/
def checkColumns : List (Nat × Nat) :=
  [(0, 0x001), (1, 0x002), (2, 0x004), (3, 0x008), (4, 0x010), (5, 0x020),
   (6, 0x040), (7, 0x080), (8, 0x100), (9, 0x1CF), (10, 0x200), (11, 0x2F3),
   (12, 0x400), (13, 0x7AA), (14, 0x800), (15, 0xBA5), (16, 0xCE9), (17, 0xF70),
   (18, 0x47E), (19, 0x717), (20, 0x93B), (21, 0xA5D), (22, 0xEC6), (23, 0xD9C)]

/-- Point 0's column. -/
def checkColumn0 : Nat := 0x001

/-- OCT[0] to OCT[63] (R90). -/
def octRomPart0 : List Nat := [
  0x0003CF, 0x000CF3, 0x000F3C, 0x0035AA, 0x003665, 0x003959, 0x003A96, 0x00C5A5,
  0x00C66A, 0x00C956, 0x00CA99, 0x00F00F, 0x00F3C0, 0x0150E9, 0x015326, 0x015C1A,
  0x016543, 0x01668C, 0x0169B0, 0x01954C, 0x019683, 0x019A70, 0x01A0E6, 0x01A329,
  0x01AC15, 0x025570, 0x025983, 0x025A4C, 0x0260DA, 0x026315, 0x026C29, 0x0290D5,
  0x02931A, 0x029C26, 0x02A6B0, 0x02A98C, 0x02AA43, 0x030599, 0x030656, 0x03096A,
  0x030AA5, 0x033033, 0x033CC0, 0x03C03C, 0x03CF00, 0x04107E, 0x0413B1, 0x041C8D,
  0x041F42, 0x0425D4, 0x04261B, 0x042927, 0x042AE8, 0x04D614, 0x04D928, 0x04E071,
  0x04EC82, 0x054097, 0x054358, 0x054C64, 0x057A01, 0x058532, 0x0589C1, 0x058A0E]

/-- OCT[64] to OCT[127] (R90). -/
def octRomPart1 : List Nat := [
  0x05B098, 0x06450E, 0x0646C1, 0x064A32, 0x0670A4, 0x0680AB, 0x068364, 0x068C58,
  0x06B501, 0x071628, 0x071914, 0x07204D, 0x072382, 0x07D042, 0x081517, 0x0816D8,
  0x0819E4, 0x081A2B, 0x0820BD, 0x082372, 0x082C4E, 0x082F81, 0x08D0B2, 0x08DC41,
  0x08E518, 0x08EA24, 0x094631, 0x09490D, 0x094AC2, 0x097054, 0x09805B, 0x098394,
  0x098CA8, 0x09B902, 0x0A4067, 0x0A43A8, 0x0A4C94, 0x0A7602, 0x0A85C2, 0x0A860D,
  0x0A8931, 0x0AB068, 0x0B108E, 0x0B1341, 0x0B2524, 0x0B2A18, 0x0BE081, 0x0C0569,
  0x0C06A6, 0x0C099A, 0x0C0A55, 0x0C30C3, 0x0C330C, 0x0C3C30, 0x0CC0CC, 0x0CC303,
  0x0D5580, 0x0D602A, 0x0D9025, 0x0DA640, 0x0E5019, 0x0E6940, 0x0E9A80, 0x0EA016]

/-- OCT[128] to OCT[191] (R90). -/
def octRomPart2 : List Nat := [
  0x0F00F0, 0x0F0C03, 0x10413B, 0x1042F4, 0x104DC8, 0x104E07, 0x107491, 0x107862,
  0x10849E, 0x108751, 0x10886D, 0x108BA2, 0x10B134, 0x10BE08, 0x1111D2, 0x11121D,
  0x111D21, 0x112478, 0x11288B, 0x112B44, 0x11D884, 0x11E212, 0x12144B, 0x121784,
  0x1218B8, 0x1221E1, 0x12222E, 0x122D12, 0x12D221, 0x12E444, 0x1344A2, 0x134851,
  0x137108, 0x138107, 0x1382C8, 0x145145, 0x14528A, 0x146720, 0x14681C, 0x1494E0,
  0x149813, 0x14A14A, 0x14A285, 0x1501AC, 0x150263, 0x150E90, 0x153406, 0x15C409,
  0x160435, 0x1608C6, 0x160B09, 0x163250, 0x16C190, 0x17A820, 0x18542C, 0x185B10,
  0x186186, 0x186249, 0x189189, 0x189246, 0x18A423, 0x18A8D0, 0x1904C5, 0x19070A]

/-- OCT[192] to OCT[255] (R90). -/
def octRomPart3 : List Nat := [
  0x190836, 0x1932A0, 0x19C160, 0x1A015C, 0x1A0293, 0x1A0E60, 0x1A3805, 0x1AC80A,
  0x1B9410, 0x1C4452, 0x1C48A1, 0x1C8238, 0x1C8D04, 0x1D1848, 0x1D2111, 0x1E1122,
  0x1E2488, 0x1F4204, 0x20445D, 0x204792, 0x2048AE, 0x204B61, 0x207238, 0x207D04,
  0x2081F8, 0x208237, 0x208D0B, 0x208EC4, 0x20B452, 0x20B8A1, 0x2114B4, 0x211847,
  0x211B88, 0x21211E, 0x2122D1, 0x212E22, 0x21D111, 0x21E848, 0x22112D, 0x2212E2,
  0x221E11, 0x222487, 0x222748, 0x222874, 0x22D488, 0x22E122, 0x2341C4, 0x23420B,
  0x238461, 0x238892, 0x23B204, 0x245423, 0x2458D0, 0x246189, 0x246246, 0x249186,
  0x249249, 0x24A42C, 0x24AB10, 0x2504CA, 0x250705, 0x250839, 0x253160, 0x25C2A0]

/-- OCT[256] to OCT[319] (R90). -/
def octRomPart4 : List Nat := [
  0x260153, 0x26029C, 0x260DA0, 0x26380A, 0x26C805, 0x276410, 0x28514A, 0x285285,
  0x2864E0, 0x286813, 0x289720, 0x28981C, 0x28A145, 0x28A28A, 0x2901A3, 0x29026C,
  0x290D50, 0x293409, 0x29C406, 0x2A043A, 0x2A08C9, 0x2A0B06, 0x2A3190, 0x2AC250,
  0x2B5820, 0x2C4134, 0x2C4E08, 0x2C8491, 0x2C8862, 0x2D1212, 0x2D2884, 0x2E1444,
  0x2E2221, 0x2F8108, 0x300566, 0x3006A9, 0x300995, 0x300A5A, 0x3030CC, 0x303303,
  0x30C0C3, 0x30C30C, 0x30CC30, 0x315640, 0x316025, 0x31902A, 0x31A580, 0x325016,
  0x326A80, 0x329940, 0x32A019, 0x330330, 0x330C0C, 0x341518, 0x341A24, 0x3420B2,
  0x342C41, 0x354902, 0x358054, 0x364068, 0x368602, 0x371081, 0x381071, 0x381C82]

/-- OCT[320] to OCT[383] (R90). -/
def octRomPart5 : List Nat := [
  0x382614, 0x382928, 0x394098, 0x398A01, 0x3A4501, 0x3A80A4, 0x3B2042, 0x3C000F,
  0x3C03C0, 0x3CF000, 0x4054C6, 0x405709, 0x405835, 0x40616C, 0x4062A3, 0x406E50,
  0x409163, 0x4092AC, 0x409D90, 0x40A4C9, 0x40A706, 0x40A83A, 0x41042F, 0x4107E0,
  0x4108DC, 0x410B13, 0x413185, 0x41324A, 0x41C18A, 0x41C245, 0x41F420, 0x4201B6,
  0x420279, 0x420D45, 0x420E8A, 0x42341C, 0x423B20, 0x42C413, 0x42C8E0, 0x435290,
  0x436806, 0x439809, 0x43A150, 0x4444B8, 0x44484B, 0x444B84, 0x447112, 0x44811D,
  0x4482D2, 0x448E21, 0x44B844, 0x451451, 0x4518A2, 0x452234, 0x452D08, 0x4611C8,
  0x461207, 0x462462, 0x462891, 0x46E208, 0x474121, 0x478484, 0x4841D1, 0x48421E]

/-- OCT[384] to OCT[447] (R90). -/
def octRomPart6 : List Nat := [
  0x484D22, 0x487888, 0x488474, 0x488887, 0x488B48, 0x48B211, 0x491138, 0x491E04,
  0x492492, 0x492861, 0x4A14A1, 0x4A1852, 0x4A210B, 0x4A22C4, 0x4AD104, 0x4B4448,
  0x4B8222, 0x4C5260, 0x4C6405, 0x4C940A, 0x4CA1A0, 0x4D0146, 0x4D0289, 0x4DC810,
  0x4E0710, 0x4E082C, 0x501632, 0x50190E, 0x501AC1, 0x502057, 0x502398, 0x502CA4,
  0x50D058, 0x50E901, 0x514514, 0x514A28, 0x5180B1, 0x518C42, 0x52408D, 0x524342,
  0x528528, 0x528A14, 0x52B082, 0x531064, 0x532601, 0x540583, 0x54064C, 0x540970,
  0x543029, 0x54C026, 0x5560C0, 0x559300, 0x565C00, 0x57001A, 0x5800EA, 0x580325,
  0x580C19, 0x583540, 0x58C680, 0x595003, 0x59A00C, 0x5A6030, 0x5B0980, 0x5C1094]

/-- OCT[448] to OCT[511] (R90). -/
def octRomPart7 : List Nat := [
  0x5C2A02, 0x5E8041, 0x60109B, 0x601354, 0x601C68, 0x602531, 0x6029C2, 0x602A0D,
  0x60DA02, 0x60E094, 0x614072, 0x614C81, 0x618618, 0x618924, 0x624624, 0x624918,
  0x627041, 0x62804E, 0x628381, 0x631502, 0x6320A8, 0x6400E5, 0x64032A, 0x640C16,
  0x643680, 0x64C540, 0x65500C, 0x65A003, 0x669030, 0x670A40, 0x68058C, 0x680643,
  0x680AB0, 0x683026, 0x68C029, 0x696300, 0x6990C0, 0x6AAC00, 0x6B0015, 0x6C1901,
  0x6C2058, 0x6E4082, 0x7051A0, 0x70640A, 0x709405, 0x70A260, 0x710149, 0x710286,
  0x713810, 0x7204D0, 0x720823, 0x744211, 0x748888, 0x762104, 0x784844, 0x788112,
  0x7A1208, 0x7D0420, 0x80519C, 0x805253, 0x805EA0, 0x806436, 0x8068C5, 0x806B0A]

/-- OCT[512] to OCT[575] (R90). -/
def octRomPart8 : List Nat := [
  0x809439, 0x8098CA, 0x809B05, 0x80A193, 0x80A25C, 0x80AD60, 0x810175, 0x8102BA,
  0x810D86, 0x810E49, 0x813710, 0x81382C, 0x81C4D0, 0x81C823, 0x8204EC, 0x820723,
  0x82081F, 0x820BD0, 0x823146, 0x823289, 0x82C149, 0x82C286, 0x82F810, 0x835405,
  0x836260, 0x8391A0, 0x83A40A, 0x8441E2, 0x84422D, 0x844D11, 0x847448, 0x848447,
  0x848788, 0x8488B4, 0x84B222, 0x85110B, 0x8512C4, 0x8524A1, 0x852852, 0x85E104,
  0x861492, 0x861861, 0x862138, 0x862E04, 0x874888, 0x878211, 0x88448B, 0x884744,
  0x884878, 0x887121, 0x88812E, 0x8882E1, 0x888E12, 0x88B484, 0x891462, 0x891891,
  0x8921C8, 0x892207, 0x89D208, 0x8A1234, 0x8A1D08, 0x8A2451, 0x8A28A2, 0x8B4112]

/-- OCT[576] to OCT[639] (R90). -/
def octRomPart9 : List Nat := [
  0x8B8844, 0x8C5806, 0x8C6290, 0x8C9150, 0x8CA809, 0x8D041C, 0x8D0B20, 0x8E0185,
  0x8E024A, 0x8EC420, 0x9010A7, 0x901368, 0x901C54, 0x90250D, 0x9026C2, 0x902A31,
  0x90D502, 0x90E0A8, 0x91404E, 0x914381, 0x918624, 0x918918, 0x91B041, 0x924618,
  0x924924, 0x928072, 0x928C81, 0x931A02, 0x932094, 0x9400D9, 0x940316, 0x940C2A,
  0x943980, 0x94CA40, 0x955030, 0x966003, 0x96900C, 0x970540, 0x9805B0, 0x980943,
  0x980A8C, 0x98301A, 0x98C015, 0x996C00, 0x9A50C0, 0x9AA300, 0x9B0029, 0x9C1601,
  0x9C2064, 0x9D8082, 0xA015C1, 0xA0160E, 0xA01932, 0xA0206B, 0xA023A4, 0xA02C98,
  0xA0D064, 0xA0E601, 0xA14528, 0xA14A14, 0xA17082, 0xA1808D, 0xA18342, 0xA240B1]

/-- OCT[640] to OCT[703] (R90). -/
def octRomPart10 : List Nat := [
  0xA24C42, 0xA28514, 0xA28A28, 0xA31058, 0xA32901, 0xA40670, 0xA4094C, 0xA40A83,
  0xA43015, 0xA4C01A, 0xA59C00, 0xA65300, 0xA6A0C0, 0xA70026, 0xA800D6, 0xA80319,
  0xA80C25, 0xA83A40, 0xA8C980, 0xA9A030, 0xAA600C, 0xAA9003, 0xAB0680, 0xAC10A8,
  0xAC2502, 0xAD4041, 0xB05809, 0xB06150, 0xB09290, 0xB0A806, 0xB10413, 0xB108E0,
  0xB2018A, 0xB20245, 0xB23420, 0xB44484, 0xB48121, 0xB52208, 0xB84222, 0xB88448,
  0xB91104, 0xBE0810, 0xC0055A, 0xC00695, 0xC009A9, 0xC00A66, 0xC030F0, 0xC03C03,
  0xC0C330, 0xC0CC0C, 0xC15940, 0xC16019, 0xC19016, 0xC1AA80, 0xC2502A, 0xC26580,
  0xC29640, 0xC2A025, 0xC300C3, 0xC3030C, 0xC30C30, 0xC41524, 0xC41A18, 0xC4208E]

/-- OCT[704] to OCT[758] (R90). -/
def octRomPart11 : List Nat := [
  0xC42341, 0xC4D081, 0xC54602, 0xC58068, 0xC64054, 0xC68902, 0xC8104D, 0xC81382,
  0xC82628, 0xC82914, 0xC8E042, 0xC940A4, 0xC98501, 0xCA4A01, 0xCA8098, 0xCC0033,
  0xCC0CC0, 0xCF3000, 0xD04461, 0xD04892, 0xD07204, 0xD081C4, 0xD0820B, 0xD11488,
  0xD12122, 0xD21111, 0xD22848, 0xD4A410, 0xD50805, 0xD602A0, 0xD89820, 0xD90250,
  0xDA0406, 0xDC4108, 0xE04107, 0xE042C8, 0xE084A2, 0xE08851, 0xE0B108, 0xE11221,
  0xE12444, 0xE21884, 0xE22212, 0xE46820, 0xE50190, 0xE60409, 0xE85410, 0xE9080A,
  0xEA0160, 0xEC8204, 0xF0003C, 0xF00F00, 0xF3C000, 0xF41042, 0xF82081]

/-- OCTROM (R90): the 759 octads in strictly increasing order. -/
def octRom : List Vec :=
  (octRomPart0 ++ octRomPart1 ++ octRomPart2 ++ octRomPart3 ++ octRomPart4 ++ octRomPart5 ++
    octRomPart6 ++ octRomPart7 ++ octRomPart8 ++ octRomPart9 ++ octRomPart10 ++ octRomPart11).map (BitVec.ofNat 24)

/-- OCT[k] (R90). The tables' readers ask only for k ≤ 758. -/
def oct (k : Nat) : Vec := octRom.getD k 0#24

/-- A permutation table from its entries. -/
def permOf (t : Vector Nat 24) : Perm := t.map (BitVec.ofNat 5)

/-- g1, the brick cycle (R286). -/
def gen1 : Perm := permOf #v[2, 3, 4, 5, 0, 1, 8, 9, 10, 11, 6, 7, 14, 15, 16, 17, 12, 13, 20, 21, 22, 23, 18, 19]

/-- g2, the conjugating couple swap (R286). -/
def gen2 : Perm := permOf #v[1, 0, 2, 3, 4, 5, 7, 6, 8, 9, 10, 11, 19, 18, 20, 21, 22, 23, 13, 12, 14, 15, 16, 17]

/-- g3, an octad involution (R286). -/
def gen3 : Perm := permOf #v[0, 1, 2, 3, 4, 6, 5, 10, 16, 22, 7, 11, 18, 21, 19, 20, 8, 17, 12, 14, 15, 13, 9, 23]

/-- GENROM (R286): GEN[1], GEN[2], GEN[3]; every other number names no generator. -/
def gen : Nat → Option Perm
  | 1 => some gen1
  | 2 => some gen2
  | 3 => some gen3
  | _ => none

end Sys2Proof.Machine
end

