-- ==== Sys2Proof/Machine/Operands.lean ====
section
/-! DEFINITION. The operand forms of the commands (30_encoding.md R111, R113): vector and permutation registers, and the
number immediates with the ranges whose check raises an error (60_exceptions.md R320). -/

namespace Sys2Proof.Machine

/-- `V[i]` (R12). -/
def State.getV (s : State) (i : Fin 8) : Vec := s.v[i]

/-- `P[i]` (R12): the raw table, which need not be a bijection (R39). -/
def State.getP (s : State) (i : Fin 4) : Perm := s.p[i]

/-- `valid_perm(p)` (R284): every entry in 0..23 and the 24 entries pairwise distinct. -/
def validPerm (p : Perm) : Bool := p.toList.all (fun e => decide (e.toNat < 24)) && decide p.toList.Nodup

/-- A register used as a permutation (R284): checked first, InvalidPattern when it is ill formed. -/
def State.permOperand (s : State) (i : Fin 4) : Except CmdError Perm :=
  if validPerm (s.getP i) then .ok (s.getP i) else .error .invalidPattern

/-- A generator number (R113, R247, R290): UnknownGenerator unless it is 1, 2 or 3. -/
def genOperand (n : Nat) : Except CmdError Perm :=
  match gen n with
  | some g => .ok g
  | none   => .error .unknownGenerator

/-- A point immediate (R113, R241, R242): InvalidPattern unless it is 0-23. -/
def pointOperand (n : Nat) : Except CmdError Point :=
  if h : n < 24 then .ok ⟨n, h⟩ else .error .invalidPattern

end Sys2Proof.Machine
end

