-- ==== Sys2Proof/Machine/Hexacode.lean ====
section
/-! DEFINITION. GF(4), the hexacode table, column reduction, and the commands HEXL, HEXV, HEXS (40_hexacode.md). -/

namespace Sys2Proof.Machine

/-- `gf4_add` (R155): XOR of the codes. -/
def gf4Add (a b : Sym) : Sym := a ^^^ b

/-- `gf4_mul` (R156), the table: ω·ω = ω̄, ω·ω̄ = 1, ω̄·ω̄ = ω. -/
def gf4Mul (a b : Sym) : Sym :=
  match a, b with
  | 0b00#2, _      => 0b00#2
  | 0b01#2, x      => x
  | _,      0b00#2 => 0b00#2
  | x,      0b01#2 => x
  | 0b10#2, 0b10#2 => 0b11#2
  | 0b10#2, 0b11#2 => 0b01#2
  | 0b11#2, 0b10#2 => 0b01#2
  | _,      _      => 0b10#2

/-- `colpat(v, c)` (R151): `{v[18+c], v[12+c], v[6+c], v[c]}`, bit r is row r. -/
def colpat (v : Vec) (c : Nat) : BitVec 4 :=
  BitVec.ofBool (v.getLsbD (18 + c)) ++ BitVec.ofBool (v.getLsbD (12 + c)) ++ BitVec.ofBool (v.getLsbD (6 + c)) ++
    BitVec.ofBool (v.getLsbD c)

/-- `score(p)` (R152): the XOR of the labels of the set rows; the label of row r is the 2-bit code r. -/
def score (p : BitVec 4) : Sym :=
  (List.range 4).foldl (fun acc r => if p.getLsbD r then acc ^^^ BitVec.ofNat 2 r else acc) 0b00#2

/-- `par(p)` (R153), true when odd. -/
def par (p : BitVec 4) : Bool := popcount p % 2 == 1

/-- `toprow(v)` (R154), true when odd: the parity of the points of v in row 0. -/
def toprow (v : Vec) : Bool := popcount (v.extractLsb' 0 6) % 2 == 1

/-- `φ(x) = a·x^2 + b·x + c` (R158). -/
def phi (a b c x : Sym) : Sym := gf4Add (gf4Add (gf4Mul a (gf4Mul x x)) (gf4Mul b x)) c

/-- The hexacode word (a, b, c, φ(1), φ(ω), φ(ω̄)), packed with h_c at bits 2c+1:2c (R158). -/
def hexacodeWord (a b c : Sym) : BitVec 12 :=
  phi a b c 0b11#2 ++ phi a b c 0b10#2 ++ phi a b c 0b01#2 ++ c ++ b ++ a

/-- The symbols of GF(4) (R150). -/
def symbols : List Sym := [0b00#2, 0b01#2, 0b10#2, 0b11#2]

/-- HEXSET (R80, R158): the 64 hexacode words. -/
def hexSet : List (BitVec 12) :=
  symbols.flatMap fun a => symbols.flatMap fun b => symbols.map fun c => hexacodeWord a b c

/-- `is_hexacode(h12)` (R158): the packed value is one of the 64. -/
def isHexacode (h : BitVec 12) : Bool := hexSet.contains h

/-- The six column scores, column c at bits 2c+1:2c (R160, R167). -/
def columnScores (v : Vec) : BitVec 12 :=
  score (colpat v 5) ++ score (colpat v 4) ++ score (colpat v 3) ++ score (colpat v 2) ++ score (colpat v 1) ++
    score (colpat v 0)

/-- The six column parities, column c at bit c (R167). -/
def columnParities (v : Vec) : BitVec 6 := ofBits 6 fun c => par (colpat v c)

/-- The first condition of R160: every column's parity equals the top-row parity. -/
def paritiesAgree (v : Vec) : Bool := (List.range 6).all fun c => par (colpat v c) == toprow v

/-- `mog_member(v)` (R160). -/
def mogMember (v : Vec) : Bool := paritiesAgree v && isHexacode (columnScores v)

/-- HEXROM's answer for a pattern as HEXL returns it (R157, R165): `{25'b0, par, score, one-hot symbol set}`. -/
def hexlWord (p : BitVec 4) : Word :=
  0#25 ++ BitVec.ofBool (par p) ++ score p ++ (1#4 <<< (score p).toNat)

/-- HEXS's result (R167): `{10'b0, hv & pc, pc, hv, t, q[5:0], h[11:0]}`. -/
def hexsWord (v : Vec) : Word :=
  0#10 ++ BitVec.ofBool (mogMember v) ++ BitVec.ofBool (paritiesAgree v) ++
    BitVec.ofBool (isHexacode (columnScores v)) ++ BitVec.ofBool (toprow v) ++ columnParities v ++ columnScores v

/-- HEXL: hexacode pattern lookup (R165). -/
def execHexl (p : Nat) (s : State) : Host.Outcome State Fault Refusal :=
  complete (Instr.hexl p).opcode
    (if p > 15 then .error .invalidPattern else .ok (s.setSres (hexlWord (BitVec.ofNat 4 p)))) s

/-- HEXV: hexacode word validation (R166). -/
def execHexv (h : BitVec 12) (s : State) : Host.Outcome State Fault Refusal :=
  complete (Instr.hexv h).opcode (.ok (s.setSres (if isHexacode h then 1#32 else 0#32))) s

/-- HEXS: column reduction of a vector (R167). -/
def execHexs (a : VReg) (s : State) : Host.Outcome State Fault Refusal :=
  complete (Instr.hexs a).opcode (.ok (s.setSres (hexsWord (s.getV a)))) s

end Sys2Proof.Machine
end

