-- ==== Sys2Proof/Machine/Golay.lean ====
section
/-! DEFINITION. The Golay code engine: encoder, syndrome, coset leader and decoder, and the commands ENC, SYN, ISCW, DEC
(41_golay.md). -/

namespace Sys2Proof.Machine

/-- `encode(d)` (R183): the XOR of B[k] over the data bits k that are 1. -/
def golayEncode (d : BitVec 12) : Vec :=
  (List.finRange 12).foldl (fun acc (k : Fin 12) => if d.getLsbD k then acc ^^^ basis[k] else acc) 0#24

/-- `syndrome(v)` (R184): bit k is `popcount(v & B[k]) mod 2`. -/
def syndrome (v : Vec) : BitVec 12 := ofBits 12 fun k => popcount (v &&& basis.toList.getD k 0#24) % 2 == 1

/-- Membership in the code C by the zero-syndrome test (R184, R192). -/
def isCodeword (v : Vec) : Bool := syndrome v == 0#12

/-- The first set of exactly k points, taken from the listed points in their order, whose syndrome is c; `cols` lists each point
beside its column of the check matrix, and the syndrome of a set is the XOR of its points' columns (R184 'syndrome is
linear'). -/
def findError : Nat → Nat → List (Nat × Nat) → Option Vec
  | 0,     c, _               => if c = 0 then some 0#24 else none
  | _ + 1, _, []              => none
  | k + 1, c, (i, col) :: cols =>
    match findError k (c ^^^ col) cols with
    | some e => some (delta i ||| e)
    | none   => findError (k + 1) c cols

/-- The coset leader of the coset with syndrome c (R185): the vector of weight 0, 1, 2 or 3 in it if there is one (there is at
most one), else the one of the six of weight 4 that contains point 0. (Every syndrome has one, so the default is never
met.) -/
def leaderOf (c : Nat) : Vec :=
  (findError 0 c checkColumns <|> findError 1 c checkColumns <|> findError 2 c checkColumns <|>
    findError 3 c checkColumns <|> (findError 3 (c ^^^ checkColumn0) checkColumns.tail).map (delta 0 ||| ·)).getD 0#24

/-- `leader(v)` (R185), which depends only on syndrome(v). -/
def leader (v : Vec) : Vec := leaderOf (syndrome v).toNat

/-- `decode(v) = (v ^ e, e)` where e = leader(v) (R186). -/
def golayDecode (v : Vec) : Vec × Vec := (v ^^^ leader v, leader v)

/-- `decode_sres(e)` (R195): `{4'b0, (wt(e) == 4), wt(e)[2:0], e[23:0]}`. -/
def decodeSres (e : Vec) : Word :=
  0#4 ++ BitVec.ofBool (popcount e == 4) ++ BitVec.ofNat 3 (popcount e) ++ e

/-! The informative realisation of `leader` (R188). No meaning calls it. -/

/-- `Ar[k]`, B[k] read at PAR (R188). -/
def stageAr : Vector (BitVec 12) 12 :=
  #v[0x39B#12, 0x5C7#12, 0xEC9#12, 0xB55#12, 0xBE2#12, 0x17E#12, 0x673#12, 0xC1F#12, 0x9AD#12, 0x6AE#12, 0xCF4#12, 0xF38#12]

/-- `Ai[k]`, the rows of the inverse of Ar (R188). -/
def stageAi : Vector (BitVec 12) 12 :=
  #v[0x1CF#12, 0x2F3#12, 0x7AA#12, 0xBA5#12, 0xCE9#12, 0xF70#12, 0x47E#12, 0x717#12, 0x93B#12, 0xA5D#12, 0xEC6#12, 0xD9C#12]

/-- The bits of v at a set of 12 points (R188 'Write x = v at INFO and y = v at PAR'). -/
def gather (place : Vector Nat 12) (v : Vec) : BitVec 12 := ofBits 12 fun k => v.getLsbD (place.toList.getD k 0)

/-- `scatter_INFO` and `scatter_PAR` (R188): bit k of z at the k-th point of the set. -/
def scatterBits (place : Vector Nat 12) (z : BitVec 12) : Vec :=
  (List.finRange 12).foldl (fun acc (k : Fin 12) => if z.getLsbD k then acc ||| delta place[k] else acc) 0#24

/-- The XOR of the rows k of a matrix where bit k of x is 1. -/
def xorRows (m : Vector (BitVec 12) 12) (x : BitVec 12) : BitVec 12 :=
  (List.finRange 12).foldl (fun acc (k : Fin 12) => if x.getLsbD k then acc ^^^ m[k] else acc) 0#12

/-- `stage(v)` (R188): the unique leader of weight at most 3, or NONE. -/
def stage (v : Vec) : Option Vec :=
  let s1 := xorRows stageAr (gather infoSet v) ^^^ gather parSet v
  let s2 := xorRows stageAi s1
  if popcount s1 ≤ 3 then some (scatterBits parSet s1) else
  match (List.finRange 12).find? fun i => popcount (s1 ^^^ stageAr[i]) ≤ 2 with
  | some i => some (scatterBits infoSet (1#12 <<< i.val) ||| scatterBits parSet (s1 ^^^ stageAr[i]))
  | none =>
    if popcount s2 ≤ 3 then some (scatterBits infoSet s2) else
    match (List.finRange 12).find? fun j => popcount (s2 ^^^ stageAi[j]) ≤ 2 with
    | some j => some (scatterBits infoSet (s2 ^^^ stageAi[j]) ||| scatterBits parSet (1#12 <<< j.val))
    | none => none

/-- R188's `leader(v)`: `stage(v)` where it finds one, else `stage(v ^ δ_0) ^ δ_0`. -/
def stagedLeader (v : Vec) : Vec :=
  match stage v with
  | some e => e
  | none   => ((stage (v ^^^ delta 0)).getD 0#24) ^^^ delta 0

/-- ENC: encode 12 data bits (R190). -/
def execEnc (d : VReg) (data : BitVec 12) (s : State) : Host.Outcome State Fault Refusal :=
  complete (Instr.enc d data).opcode (.ok (s.setV d (golayEncode data))) s

/-- SYN: syndrome (R191). -/
def execSyn (a : VReg) (s : State) : Host.Outcome State Fault Refusal :=
  complete (Instr.syn a).opcode (.ok (s.setSres ((syndrome (s.getV a)).setWidth 32))) s

/-- ISCW: codeword test (R192). -/
def execIscw (a : VReg) (s : State) : Host.Outcome State Fault Refusal :=
  complete (Instr.iscw a).opcode (.ok (s.setSres (if isCodeword (s.getV a) then 1#32 else 0#32))) s

/-- DEC: decode to the nearest codeword (R193). -/
def execDec (d a : VReg) (s : State) : Host.Outcome State Fault Refusal :=
  complete (Instr.dec d a).opcode
    (.ok ((s.setV d (golayDecode (s.getV a)).1).setSres (decodeSres (golayDecode (s.getV a)).2))) s

end Sys2Proof.Machine
end

