-- ==== Sys2Proof/Machine/Action.lean ====
section
/-! DEFINITION. How a permutation acts: on a vector, on the grid, by composition and inversion (44_group.md R280-R285).
The grid and the group commands share these. -/

namespace Sys2Proof.Machine

/-- `apply_v(p, v)` (R280): the OR over the points i of v of δ_{p[i]}. -/
def applyV (p : Perm) (v : Vec) : Vec :=
  points.foldl (fun acc (i : Point) => if v.getLsbD i then acc ||| delta p[i].toNat else acc) 0#24

/-- Each item moves from place i to place p[i]: place j gets the item of the first i with p[i] = j. (Where no i is sent to j,
which no bijection allows, place j keeps its own item; every caller checks valid_perm first, R284.) -/
def moveBy {α : Type} (p : Perm) (x : Vector α 24) : Vector α 24 :=
  Vector.ofFn fun j => match points.find? fun i => p[i].toNat == j.val with
    | some i => x[i]
    | none   => x[j]

/-- `apply_g(p, G)` (R281): `G'[p[i]] = G[i]`. -/
def applyG (p : Perm) (g : Vector Cell 24) : Vector Cell 24 := moveBy p g

/-- `compose(a, b)` (R282): `c[i] = b[a[i]]`, first a, then b. (An a[i] above 23 names no entry of b; valid_perm, checked
first, excludes it.) -/
def compose (a b : Perm) : Perm := Vector.ofFn fun i => b.toList.getD a[i].toNat 0#5

/-- `invert(a)` (R283): `r[a[i]] = i`. -/
def invert (a : Perm) : Perm := moveBy a idPerm

/-- `is_aut(p)` (R285): p is well formed and sends every basis word into C. -/
def isAut (p : Perm) : Bool := validPerm p && basis.toList.all fun b => isCodeword (applyV p b)

end Sys2Proof.Machine
end

