-- ==== Sys2Proof/Machine/Flags.lean ====
section
/-! DEFINITION. The flags and the words the host reads them in (10_state.md R34-R36, R40, R42, R45). -/

namespace Sys2Proof.Machine

/-- ID's constant value (R34). -/
def idValue : Word := 0x4D4F4701#32

/-- CTRL as read (R35): SRST reads 0, IE is bit 1, bits 31:2 read 0. -/
def State.ctrlWord (s : State) : Word := 0#30 ++ BitVec.ofBool s.ie ++ 0#1

/-- STATUS as read (R36): {0, LASTOP, ERRCODE, ERR, OVR, DONE, BUSY}. -/
def State.statusWord (s : State) : Word :=
  0#16 ++ s.lastOp ++ s.errCode ++ BitVec.ofBool s.err ++ BitVec.ofBool s.ovr ++ BitVec.ofBool s.done ++
    BitVec.ofBool s.busy

/-- The interrupt output, a level (R42, R330): `irq = CTRL.IE & STATUS.DONE`. -/
def State.irq (s : State) : Bool := s.ie && s.done

/-- A cell's 2-bit code (R40). -/
def Cell.code : Cell → BitVec 2
  | .unselected       => 0b00#2
  | .selected         => 0b01#2
  | .highlightedOctad => 0b10#2
  | .highlightedError => 0b11#2

/-- Cells packed two bits each, the first at bits 1:0 (R40). -/
def packCells : List Cell → Word
  | []      => 0#32
  | c :: cs => (packCells cs <<< 2) ||| c.code.setWidth 32

/-- GRID_LO (R40): GRID[j] at bits 2j+1:2j for j = 0..15. -/
def State.gridLo (s : State) : Word := packCells (s.grid.toList.take 16)

/-- GRID_HI (R40): GRID[16+j] at bits 2j+1:2j for j = 0..7; bits 31:16 are 0. -/
def State.gridHi (s : State) : Word := packCells (s.grid.toList.drop 16)

end Sys2Proof.Machine
end

