-- ==== Sys2Proof/Machine/Octad.lean ====
section
/-! DEFINITION. The octad completer, the octad-match state machine, and the commands CMPL, OCTF, OCTR (42_octad.md). -/

namespace Sys2Proof.Machine

/-- `complete(S)` (R211): fewer than 5 points is AmbiguousInput; else the octad that contains S, or NoCompletion. -/
def completion (S : Vec) : Except CmdError Vec :=
  if popcount S < 5 then .error .ambiguousInput
  else match octRom.find? fun O => S &&& O == S with
    | some O => .ok O
    | none   => .error .noCompletion

/-- Completion through the decoder (R212), informative: no meaning calls it. -/
def completionByDecoder (S : Vec) : Except CmdError Vec :=
  if popcount S < 5 then .error .ambiguousInput
  else if popcount (golayDecode S).1 = 8 ∧ (golayDecode S).1 &&& S = S then .ok (golayDecode S).1
  else .error .noCompletion

/-- The states of the octad-match machine (R213). -/
inductive OctadMatch where
  | idle
  | probe (lo hi : Nat)
  | done (lo : Nat)
  deriving DecidableEq, Repr

/-- One step of the octad-match machine, searching for x (R213): one probe of OCTROM in state PROBE. -/
def octadMatchStep (x : Vec) : OctadMatch → OctadMatch
  | .idle => .probe 0 759
  | .probe lo hi =>
    if lo ≥ hi then .done lo
    else if oct ((lo + hi) / 2) < x then .probe ((lo + hi) / 2 + 1) hi
    else .probe lo ((lo + hi) / 2)
  | .done lo => .done lo

/-- n steps of the octad-match machine. -/
def octadMatchRun (x : Vec) : Nat → OctadMatch → OctadMatch
  | 0,     m => m
  | n + 1, m => octadMatchRun x n (octadMatchStep x m)

/-- `lower_bound(x)` (R213): the machine's result. Twelve steps reach DONE: one from IDLE, at most 10 probes, one into DONE. -/
def lowerBound (x : Vec) : Nat :=
  match octadMatchRun x 12 .idle with
  | .done lo    => lo
  | .probe lo _ => lo
  | .idle       => 0

/-- `found` (R213, R221). -/
def octadFound (x : Vec) : Bool := decide (lowerBound x < 759) && oct (lowerBound x) == x

/-- OCTF's result (R221): `{found, 21'b0, lo[9:0]}`. -/
def octfWord (x : Vec) : Word := BitVec.ofBool (octadFound x) ++ 0#21 ++ BitVec.ofNat 10 (lowerBound x)

/-- CMPL: complete a point set to its octad (R220). -/
def execCmpl (d a : VReg) (s : State) : Host.Outcome State Fault Refusal :=
  complete (Instr.cmpl d a).opcode
    (match completion (s.getV a) with
     | .error e => .error e
     | .ok O    => .ok ((s.setV d O).setSres ((O &&& ~~~(s.getV a)).setWidth 32))) s

/-- OCTF: octad match by binary search (R221). -/
def execOctf (a : VReg) (s : State) : Host.Outcome State Fault Refusal :=
  complete (Instr.octf a).opcode (.ok (s.setSres (octfWord (s.getV a)))) s

/-- OCTR: read an octad from OCTROM (R222). -/
def execOctr (d : VReg) (k : Nat) (s : State) : Host.Outcome State Fault Refusal :=
  complete (Instr.octr d k).opcode (if k ≥ 759 then .error .invalidPattern else .ok (s.setV d (oct k))) s

end Sys2Proof.Machine
end

