-- ==== Sys2Proof/Machine/Grid.lean ====
section
/-! DEFINITION. NOP and the grid commands SEL, DESEL, GRST, GCMPL, GDEC, GMASK, GAPPLY, GPERM (43_grid.md). -/

namespace Sys2Proof.Machine

/-- The vector of the cells for which f holds. -/
def cellsWhere (f : Cell → Bool) (g : Vector Cell 24) : Vec := ofBits 24 fun i => (g.toList[i]?).any f

/-- `selmask(GRID)` (R238): the Selected cells. -/
def selmask (g : Vector Cell 24) : Vec := cellsWhere (fun c => c == .selected) g

/-- The grid after a completion of S to the octad O (R244). -/
def completedGrid (S O : Vec) : Vector Cell 24 :=
  Vector.ofFn fun i =>
    if S.getLsbD i then .selected else if O.getLsbD i then .highlightedOctad else .unselected

/-- The grid after a decode of v with error pattern e (R245). -/
def decodedGrid (v e : Vec) : Vector Cell 24 :=
  Vector.ofFn fun i =>
    if e.getLsbD i then .highlightedError else if v.getLsbD i then .selected else .unselected

/-- NOP: no operation (R240). -/
def execNop (s : State) : Host.Outcome State Fault Refusal := complete Instr.nop.opcode (.ok s) s

/-- SEL: `select(point)` (R241). -/
def execSel (pt : Nat) (s : State) : Host.Outcome State Fault Refusal :=
  complete (Instr.sel pt).opcode
    (match pointOperand pt with
     | .error e => .error e
     | .ok i    => .ok (s.setGrid (s.grid.set i .selected))) s

/-- DESEL: `deselect(point)` (R242). -/
def execDesel (pt : Nat) (s : State) : Host.Outcome State Fault Refusal :=
  complete (Instr.desel pt).opcode
    (match pointOperand pt with
     | .error e => .error e
     | .ok i    => .ok (s.setGrid (s.grid.set i .unselected))) s

/-- GRST: `reset()` of the grid (R243). -/
def execGrst (s : State) : Host.Outcome State Fault Refusal :=
  complete Instr.grst.opcode (.ok (s.setGrid (Vector.replicate 24 .unselected))) s

/-- GCMPL: `completeOctad()` (R244). -/
def execGcmpl (d : VReg) (s : State) : Host.Outcome State Fault Refusal :=
  complete (Instr.gcmpl d).opcode
    (match completion (selmask s.grid) with
     | .error e => .error e
     | .ok O    => .ok (((s.setV d O).setSres ((O &&& ~~~(selmask s.grid)).setWidth 32)).setGrid
                    (completedGrid (selmask s.grid) O))) s

/-- GDEC: `decode(vector)` applied to the grid (R245). -/
def execGdec (d : VReg) (s : State) : Host.Outcome State Fault Refusal :=
  complete (Instr.gdec d).opcode
    (.ok (((s.setV d (golayDecode (selmask s.grid)).1).setSres (decodeSres (golayDecode (selmask s.grid)).2)).setGrid
      (decodedGrid (selmask s.grid) (golayDecode (selmask s.grid)).2))) s

/-- GMASK: read the grid as a vector (R246). -/
def execGmask (d : VReg) (k : Nat) (s : State) : Host.Outcome State Fault Refusal :=
  complete (Instr.gmask d k).opcode
    (if k > 3 then .error .invalidPattern
     else .ok (s.setV d (cellsWhere (fun c => c.code == BitVec.ofNat 2 k) s.grid))) s

/-- GAPPLY: `applyGenerator(name)` (R247). -/
def execGapply (n : Nat) (s : State) : Host.Outcome State Fault Refusal :=
  complete (Instr.gapply n).opcode
    (match genOperand n with
     | .error e => .error e
     | .ok g    => .ok (s.setGrid (applyG g s.grid))) s

/-- GPERM: `apply(perm, state)` with a permutation register (R248). -/
def execGperm (a : PReg) (s : State) : Host.Outcome State Fault Refusal :=
  complete (Instr.gperm a).opcode
    (match s.permOperand a with
     | .error e => .error e
     | .ok q    => .ok (s.setGrid (applyG q s.grid))) s

end Sys2Proof.Machine
end

