-- ==== Sys2Proof/Machine/Group.lean ====
section
/-! DEFINITION. The group commands PGEN, PID, PCOMP, PINV, PAPV, PTEST (44_group.md). -/

namespace Sys2Proof.Machine

/-- PTEST's result (R295): `{30'b0, aut, bij}`. -/
def ptestWord (q : Perm) : Word := 0#30 ++ BitVec.ofBool (isAut q) ++ BitVec.ofBool (validPerm q)

/-- PGEN: `generator(name)` (R290). -/
def execPgen (d : PReg) (n : Nat) (s : State) : Host.Outcome State Fault Refusal :=
  complete (Instr.pgen d n).opcode
    (match genOperand n with
     | .error e => .error e
     | .ok g    => .ok (s.setP d g)) s

/-- PID: load the identity (R291). -/
def execPid (d : PReg) (s : State) : Host.Outcome State Fault Refusal :=
  complete (Instr.pid d).opcode (.ok (s.setP d idPerm)) s

/-- PCOMP: `compose(a, b)` (R292); both operands are checked, and either one being ill formed raises InvalidPattern. -/
def execPcomp (d a b : PReg) (s : State) : Host.Outcome State Fault Refusal :=
  complete (Instr.pcomp d a b).opcode
    (match s.permOperand a, s.permOperand b with
     | .ok x, .ok y  => .ok (s.setP d (compose x y))
     | .error e, _   => .error e
     | _, .error e   => .error e) s

/-- PINV: `invert(a)` (R293). -/
def execPinv (d a : PReg) (s : State) : Host.Outcome State Fault Refusal :=
  complete (Instr.pinv d a).opcode
    (match s.permOperand a with
     | .error e => .error e
     | .ok q    => .ok (s.setP d (invert q))) s

/-- PAPV: apply a permutation to a vector (R294). -/
def execPapv (d : VReg) (a : PReg) (b : VReg) (s : State) : Host.Outcome State Fault Refusal :=
  complete (Instr.papv d a b).opcode
    (match s.permOperand a with
     | .error e => .error e
     | .ok q    => .ok (s.setV d (applyV q (s.getV b)))) s

/-- PTEST: permutation check (R295); never raises. -/
def execPtest (a : PReg) (s : State) : Host.Outcome State Fault Refusal :=
  complete (Instr.ptest a).opcode (.ok (s.setSres (ptestWord (s.getP a)))) s

end Sys2Proof.Machine
end

