-- ==== Sys2Proof/Machine/Dispatch.lean ====
section
/-! DEFINITION. The dispatch: one arm per command (30_encoding.md R114; 70_reset_and_hazards.md R370). -/

namespace Sys2Proof.Machine

def exec (i : Instr) (s : State) : Host.Outcome State Fault Refusal :=
  match i with
  | .nop => Sys2Proof.Machine.execNop s
  | .hexl p => Sys2Proof.Machine.execHexl p s
  | .hexv h => Sys2Proof.Machine.execHexv h s
  | .hexs a => Sys2Proof.Machine.execHexs a s
  | .enc d data => Sys2Proof.Machine.execEnc d data s
  | .syn a => Sys2Proof.Machine.execSyn a s
  | .iscw a => Sys2Proof.Machine.execIscw a s
  | .dec d a => Sys2Proof.Machine.execDec d a s
  | .cmpl d a => Sys2Proof.Machine.execCmpl d a s
  | .octf a => Sys2Proof.Machine.execOctf a s
  | .octr d k => Sys2Proof.Machine.execOctr d k s
  | .sel pt => Sys2Proof.Machine.execSel pt s
  | .desel pt => Sys2Proof.Machine.execDesel pt s
  | .grst => Sys2Proof.Machine.execGrst s
  | .gcmpl d => Sys2Proof.Machine.execGcmpl d s
  | .gdec d => Sys2Proof.Machine.execGdec d s
  | .gmask d k => Sys2Proof.Machine.execGmask d k s
  | .gapply n => Sys2Proof.Machine.execGapply n s
  | .gperm a => Sys2Proof.Machine.execGperm a s
  | .pgen d n => Sys2Proof.Machine.execPgen d n s
  | .pid d => Sys2Proof.Machine.execPid d s
  | .pcomp d a b => Sys2Proof.Machine.execPcomp d a b s
  | .pinv d a => Sys2Proof.Machine.execPinv d a s
  | .papv d a b => Sys2Proof.Machine.execPapv d a b s
  | .ptest a => Sys2Proof.Machine.execPtest a s

end Sys2Proof.Machine
end

