-- ==== Sys2Proof/Config.lean ====
section
/-! DEFINITION. What the spec leaves to the platform or leaves open (00_scope.md R8; 92_eei_decisions.md D2, D32), and
the one free value of the host notation (R120). Each is a constant with no body, so no proof can rest on a value of it. -/

namespace Sys2Proof.Config

/-- CORE_BASE: the platform address of the register window (R8, R70). The core itself sees only offsets. -/
opaque coreBase : Nat

/-- LATENCY (R8, R372), as the model needs it: how many host steps come between the acceptance of the n-th accepted
command and its completion, at most (the completion comes sooner only when the host has no step left). It may differ
per command and per execution and may be 0; assumption log 1. -/
opaque latency : Nat → Nat

/-- A host branch names a register (R120 'the last value read from REG'); the spec gives no value where the host has
not read that register yet. A free value per offset; assumption log 4. -/
opaque unreadVariable : Nat → Word

/-- The platform address of a register (R8, R70): informative, since every access the core sees is an offset. -/
def busAddress (off : Offset) : Nat := coreBase + off.toNat

end Sys2Proof.Config
end

