-- ==== Sys2Proof/Machine/Bus.lean ====
section
/-! DEFINITION. The register window: the register map, host reads and host writes, blocking while busy, and the core reset
(20_memory.md R70-R79; 10_state.md R32-R40; 70_reset_and_hazards.md R360, R361). -/

namespace Sys2Proof.Machine

/-- What stands at an offset of the window (R71). -/
inductive Reg where
  | id | ctrl | status | cmd | sres | gridLo | gridHi
  | v (i : Fin 8)
  | p (i : Fin 4) (j : Fin 24)
  | unmapped
  deriving DecidableEq, Repr

/-- The offset of Vi (R71). -/
def vOffset (i : Fin 8) : Offset := BitVec.ofNat 12 (0x020 + 4 * i.val)

/-- The offset of P[i][j] (R72): `0x100 + (i << 7) + (j << 2)`. -/
def pOffset (i : Fin 4) (j : Fin 24) : Offset := BitVec.ofNat 12 (0x100 + (i.val <<< 7) + (j.val <<< 2))

/-- The register map (R71). Only multiples of 4 are ever asked for (R75); every other offset is unmapped. -/
def regAtNat (n : Nat) : Reg :=
  if n % 4 ≠ 0 then .unmapped
  else if n < 0x020 then
    match n with
    | 0x000 => .id
    | 0x004 => .ctrl
    | 0x008 => .status
    | 0x00C => .cmd
    | 0x010 => .sres
    | 0x014 => .gridLo
    | 0x018 => .gridHi
    | _     => .unmapped
  else if n < 0x040 then .v (Fin.ofNat 8 ((n - 0x020) / 4))
  else if n < 0x100 then .unmapped
  else if n < 0x300 then
    if h : n % 0x80 / 4 < 24 then .p (Fin.ofNat 4 ((n - 0x100) / 0x80)) ⟨n % 0x80 / 4, h⟩ else .unmapped
  else .unmapped

/-- The register at an offset (R71). -/
def regAt (off : Offset) : Reg := regAtNat off.toNat

/-- The value a host read of a register returns (R32-R40, R73): committed state, with no side effect (R78). -/
def State.readReg (s : State) : Reg → Word
  | .id       => idValue
  | .ctrl     => s.ctrlWord
  | .status   => s.statusWord
  | .cmd      => 0#32
  | .sres     => s.sres
  | .gridLo   => s.gridLo
  | .gridHi   => s.gridHi
  | .v i      => (s.getV i).setWidth 32
  | .p i j    => ((s.getP i)[j]).setWidth 32
  | .unmapped => 0#32

/-- `MemRead(off, 4)` (R12). -/
def State.busRead (s : State) (off : Offset) : Word := s.readReg (regAt off)

/-- The core's part of a power-on or soft reset (R46, R360, R361): every piece of writable state takes its reset value, and a
pending command is discarded. The host's own program, position and variables are not the core's and stay. -/
def State.resetCore (s : State) : State :=
  { State.reset with prog := s.prog, pos := s.pos, vars := s.vars, issued := s.issued }

/-- A write blocked by BUSY (R38): nothing changes but OVR, which is set. -/
def State.block (s : State) : State := { s with ovr := true }

/-- An accepted CMD write (R37): the word is latched and BUSY is set; nothing else changes. The delay is the model's (R372). -/
def State.accept (s : State) (w : Word) : State :=
  { s with pend := some { word := w, delay := Config.latency s.issued }, issued := s.issued + 1 }

/-- A STATUS write (R36): write-1-to-clear on DONE (bit 1) and OVR (bit 2), nothing else. -/
def State.writeStatus (s : State) (x : Word) : State :=
  { s with done := s.done && !x.getLsbD 1, ovr := s.ovr && !x.getLsbD 2 }

/-- A CTRL write (R35): SRST = 1 resets and discards the written IE; otherwise IE is bit 1. -/
def State.writeCtrl (s : State) (x : Word) : State :=
  if x.getLsbD 0 then s.resetCore else { s with ie := x.getLsbD 1 }

/-- The effect of a host write to a register (R35-R40, R73). -/
def State.writeReg (s : State) (r : Reg) (x : Word) : State :=
  match r with
  | .id       => s
  | .ctrl     => s.writeCtrl x
  | .status   => s.writeStatus x
  | .cmd      => if s.busy then s.block else s.accept x
  | .sres     => s
  | .gridLo   => s
  | .gridHi   => s
  | .v i      => if s.busy then s.block else s.setV i (x.setWidth 24)
  | .p i j    => if s.busy then s.block else s.setP i ((s.getP i).set j (x.setWidth 5))
  | .unmapped => s

/-- `MemWrite(off, 4, x)` (R12). -/
def State.busWrite (s : State) (off : Offset) (x : Word) : State := s.writeReg (regAt off) x

/-- Why an access is no step of the interface (R75): its width is not 4 bytes, or its offset is not a multiple of 4. -/
def accessRefusal (bytes : Nat) (off : Offset) : Option Refusal :=
  if bytes ≠ 4 then some (.accessWidth bytes)
  else if off.toNat % 4 ≠ 0 then some (.misaligned off)
  else none

end Sys2Proof.Machine
end

