-- ==== Sys2Proof/Machine/HostProgram.lean ====
section
/-! DEFINITION. The host: its variables, its statements (30_encoding.md R120), one host step, and the notation of R118 and
R121 as functions (the text of a command, and the pseudo-instructions as the statements they stand for). -/

namespace Sys2Proof.Machine

/-- The last value the host read at an offset, if it has read one (R120). -/
def varsGet (k : Nat) : List (Nat × Word) → Option Word
  | []           => none
  | (a, y) :: vs => if a = k then some y else varsGet k vs

/-- Keep a value read (R120): one entry an offset, offsets strictly rising. -/
def varsSet (k : Nat) (x : Word) : List (Nat × Word) → List (Nat × Word)
  | []           => [(k, x)]
  | (a, y) :: vs => if k < a then (k, x) :: (a, y) :: vs else if k = a then (k, x) :: vs else (a, y) :: varsSet k x vs

/-- The canonical form of the host variables: offsets strictly rising. -/
def varsWf (vs : List (Nat × Word)) : Bool := decide ((vs.map Prod.fst).Pairwise (· < ·))

/-- The host variable of a register (R120); a free value where the host has read none (assumption log 4). -/
def State.hostVar (s : State) (reg : Offset) : Word :=
  (varsGet reg.toNat s.vars).getD (Config.unreadVariable reg.toNat)

/-- `rd` (R120): the value goes to the host variable of the register. -/
def State.keepRead (s : State) (reg : Offset) (x : Word) : State := { s with vars := varsSet reg.toNat x s.vars }

/-- On to the next statement: the index advances by one (R31). -/
def State.advance (s : State) : State := { s with pos := s.pos + 1 }

/-- On to a label. -/
def State.jump (s : State) (target : Nat) : State := { s with pos := target }

/-- Is the field `REG[lo+width-1:lo]` of the last value read nonzero (R120)? -/
def State.fieldSet (s : State) (reg : Offset) (lo width : Nat) : Bool :=
  (s.hostVar reg).extractLsb' lo width != 0#width

/-- The host's next statement (R31), if there is one. -/
def State.nextStmt (s : State) : Option HostStmt := s.prog[s.pos]?

/-- The host has no step left: it stands at `halt`, or past its program's end (R120, R122). -/
def State.hostDone (s : State) : Bool :=
  match s.nextStmt with
  | none       => true
  | some .halt => true
  | some _     => false

/-- The end of run (R122): the host is done with STATUS.BUSY = 0. -/
def State.endOfRun (s : State) : Bool := s.hostDone && !s.busy

/-- One statement of the host (R120). A bus access R75 gives no meaning is refused. -/
def runStmt (st : HostStmt) (s : State) : Host.Outcome State Fault Refusal :=
  match st with
  | .rd bytes off =>
    match accessRefusal bytes off with
    | some r => .refused r
    | none   => .next ((s.keepRead off (s.busRead off)).advance)
  | .wr bytes off x =>
    match accessRefusal bytes off with
    | some r => .refused r
    | none   => .next ((s.busWrite off x).advance)
  | .bnz reg lo width target => .next (if s.fieldSet reg lo width then s.jump target else s.advance)
  | .bz reg lo width target => .next (if s.fieldSet reg lo width then s.advance else s.jump target)
  | .jmp target => .next (s.jump target)
  | .halt => .next s
  | .powerReset => .next (s.resetCore.advance)

/-- One host step. A host that is done takes none, and an idle core takes none either: all state is kept (R343). -/
def hostStep (s : State) : Host.Outcome State Fault Refusal :=
  match s.nextStmt with
  | none    => .next s
  | some st => runStmt st s

/-! The notation of R118. -/

/-- `vN`. -/
def vName (i : VReg) : String := "v" ++ toString i.val
/-- `pN`. -/
def pName (i : PReg) : String := "p" ++ toString i.val
/-- `#n`. -/
def immName (n : Nat) : String := "#" ++ toString n

/-- A command as the assembler writes it (R118): operands in the order D, A, B, IMM, unused fields left out. -/
def asmText : Instr → String
  | .nop         => "NOP"
  | .hexl p      => "HEXL " ++ immName p
  | .hexv h      => "HEXV " ++ immName h.toNat
  | .hexs a      => "HEXS " ++ vName a
  | .enc d x     => "ENC " ++ vName d ++ ", " ++ immName x.toNat
  | .syn a       => "SYN " ++ vName a
  | .iscw a      => "ISCW " ++ vName a
  | .dec d a     => "DEC " ++ vName d ++ ", " ++ vName a
  | .cmpl d a    => "CMPL " ++ vName d ++ ", " ++ vName a
  | .octf a      => "OCTF " ++ vName a
  | .octr d k    => "OCTR " ++ vName d ++ ", " ++ immName k
  | .sel pt      => "SEL " ++ immName pt
  | .desel pt    => "DESEL " ++ immName pt
  | .grst        => "GRST"
  | .gcmpl d     => "GCMPL " ++ vName d
  | .gdec d      => "GDEC " ++ vName d
  | .gmask d k   => "GMASK " ++ vName d ++ ", " ++ immName k
  | .gapply n    => "GAPPLY " ++ immName n
  | .gperm a     => "GPERM " ++ pName a
  | .pgen d n    => "PGEN " ++ pName d ++ ", " ++ immName n
  | .pid d       => "PID " ++ pName d
  | .pcomp d a b => "PCOMP " ++ pName d ++ ", " ++ pName a ++ ", " ++ pName b
  | .pinv d a    => "PINV " ++ pName d ++ ", " ++ pName a
  | .papv d a b  => "PAPV " ++ vName d ++ ", " ++ pName a ++ ", " ++ vName b
  | .ptest a     => "PTEST " ++ pName a

/-! The pseudo-instructions of R121. One that holds a label takes the index it stands at. -/

/-- `wr CMD, word`. -/
def wrCmd (w : Word) : HostStmt := .wr 4 0x00C#12 w

/-- `wait`: `w: rd STATUS ; bnz STATUS.BUSY, w`, standing at index `here`. -/
def waitStmts (here : Nat) : List HostStmt := [.rd 4 0x008#12, .bnz 0x008#12 0 1 here]

/-- A command line `MN ops`, standing at index `here`: `wr CMD, word ; wait`. -/
def commandLine (here : Nat) (i : Instr) : List HostStmt := wrCmd (encode i) :: waitStmts (here + 1)

/-- `issue MN ops` (no wait). -/
def issueStmts (i : Instr) : List HostStmt := [wrCmd (encode i)]

/-- `ldv vN, #x`. -/
def ldvStmts (n : VReg) (x : Vec) : List HostStmt := [.wr 4 (vOffset n) (x.setWidth 32)]

/-- `ldp pN, [e0, ..., e23]`. -/
def ldpStmts (n : PReg) (e : Perm) : List HostStmt := points.map fun j => .wr 4 (pOffset n j) (e[j].setWidth 32)

/-- `clrdone`. -/
def clrdoneStmts : List HostStmt := [.wr 4 0x008#12 0x2#32]

/-- `clrovr`. -/
def clrovrStmts : List HostStmt := [.wr 4 0x008#12 0x4#32]

/-- `sreset`. -/
def sresetStmts : List HostStmt := [.wr 4 0x004#12 0x1#32]

/-- `PMOV pd, pa`, standing at index `here`: `PINV pd, pa ; PINV pd, pd`. -/
def pmovStmts (here : Nat) (d a : PReg) : List HostStmt :=
  commandLine here (.pinv d a) ++ commandLine (here + 3) (.pinv d d)

end Sys2Proof.Machine
end

