-- ==== Sys2Proof/Machine/Completion.lean ====
section
/-! DEFINITION. The core's one step, the completion of the pending command (70_reset_and_hazards.md R370), and whose turn it is
(20_memory.md R81; R331, R372). -/

namespace Sys2Proof.Machine

/-- The completion step of the command word w (R370): an illegal word raises IllegalCommand with its own bits 7:0 in LASTOP
(R115, R321); a legal one runs. -/
def completionStep (w : Word) (s : State) : Host.Outcome State Fault Refusal :=
  match decode w with
  | some i => exec i s
  | none   => .next (s.raise (opField w) .illegalCommand)

/-- One host step fewer before the completion (R372). -/
def State.tick (s : State) : State :=
  { s with pend := s.pend.map fun q => { q with delay := q.delay - 1 } }

/-- One step of the total order of R81: the completion when it is due, or when the host has no step left; else the host. -/
def machineStep (s : State) : Host.Outcome State Fault Refusal :=
  match s.pend with
  | none   => hostStep s
  | some q => if q.delay = 0 ∨ s.hostDone = true then completionStep q.word s else hostStep s.tick

end Sys2Proof.Machine
end

