-- ==== Sys2Proof/Machine/Step.lean ====
section
/-! DEFINITION. One step of the machine, and the host's way to place an instruction where the next step runs it. -/

namespace Sys2Proof.Machine

/-- One step: a host step or the completion of the pending command (10_state.md R30; 20_memory.md R81). -/
def step (s : State) : Host.Outcome State Fault Refusal := machineStep s

/-- The core fetches no instruction (R31): a command comes by a CMD write. So the state with the command word accepted and its
completion due: PEND holds it and BUSY is 1, as a CMD write leaves them (R37), with no host step in between (R372). -/
def State.withFetchWord (s : State) (nbits w : Nat) : State :=
  { s with pend := some { word := BitVec.ofNat 32 (w % 2 ^ nbits), delay := 0 } }

end Sys2Proof.Machine
end

