-- ==== Sys2Proof/Safety.lean ====
section
/-! DEFINITION. What counts as a safe run of this machine, and the terms the statements use: the invariant of the state, host
programs that ask for nothing the interface lacks, what a completion leaves, and the mathematics of the code by its
definition (span, octad, leader, bijection) rather than by the machine's own tests. -/

namespace Sys2Proof.Machine

/-- A bus access the interface has, or no bus access at all (R75). -/
def HostStmt.isClean : HostStmt → Bool
  | .rd bytes off   => bytes == 4 && off.toNat % 4 == 0
  | .wr bytes off _ => bytes == 4 && off.toNat % 4 == 0
  | .bnz _ _ _ _    => true
  | .bz _ _ _ _     => true
  | .jmp _          => true
  | .halt           => true
  | .powerReset     => true

/-- Every statement of the host's program is clean: then no step is refused. -/
def State.cleanProgram (s : State) : Bool := s.prog.all HostStmt.isClean

/-- The invariant of the state: ERR is (ERRCODE ≠ 0) (R36), codes 6-15 are never reported (R320), and the host variables are in
canonical form. -/
structure State.Inv (s : State) : Prop where
  err  : s.err = decide (s.errCode ≠ 0#4)
  code : s.errCode.toNat ≤ 5
  vars : varsWf s.vars = true

/-- A safe step: the machine goes on. -/
def SafeStep (s : State) : Prop := ∃ t, step s = .next t

/-- k steps lead from s to t, each to a next state. -/
def Reaches : Nat → State → State → Prop
  | 0,     s, t => s = t
  | k + 1, s, t => ∃ u, step s = .next u ∧ Reaches k u t

/-- The completion of the pending command is due: it comes at the next step (R81, R372). -/
def State.due (s : State) (q : Pending) : Prop := s.pend = some q ∧ (q.delay = 0 ∨ s.hostDone = true)

/-- What a completion leaves in every field that is not a command's data (R324): the completion fields, and CTRL.IE, OVR and
the host as they were. -/
structure Completed (op : Byte) (code : BitVec 4) (s t : State) : Prop where
  pend    : t.pend = none
  done    : t.done = true
  errCode : t.errCode = code
  err     : t.err = decide (code ≠ 0#4)
  lastOp  : t.lastOp = op
  ovr     : t.ovr = s.ovr
  ie      : t.ie = s.ie
  prog    : t.prog = s.prog
  pos     : t.pos = s.pos
  vars    : t.vars = s.vars
  issued  : t.issued = s.issued

/-- V, P, SRES and GRID, everything a command can assign (R322), are as they were. -/
structure DataKept (s t : State) : Prop where
  v    : t.v = s.v
  p    : t.p = s.p
  sres : t.sres = s.sres
  grid : t.grid = s.grid

/-- The command completes with an error (R322): nothing but the completion fields changes. -/
def Raises (i : Instr) (code : BitVec 4) (s : State) : Prop :=
  ∃ t, exec i s = .next t ∧ Completed i.opcode code s t ∧ DataKept s t

/-- Every vector register but d is as it was. -/
def OtherV (d : VReg) (s t : State) : Prop := ∀ r : VReg, r ≠ d → t.v[r] = s.v[r]

/-- Every permutation register but d is as it was. -/
def OtherP (d : PReg) (s t : State) : Prop := ∀ r : PReg, r ≠ d → t.p[r] = s.p[r]

/-- v is in the Golay code C: the span of the basis (R181). -/
def InCode (v : Vec) : Prop := ∃ d : BitVec 12, v = golayEncode d

/-- v is an octad: a codeword of weight 8 (R210). -/
def IsOctad (v : Vec) : Prop := InCode v ∧ popcount v = 8

/-- S lies in O. -/
def Within (S O : Vec) : Prop := S &&& O = S

/-- e is the leader of v's coset (R185): v ^ e is in C, no vector of the coset has less weight, and at weight 4 it contains
point 0. -/
def IsLeader (v e : Vec) : Prop :=
  InCode (v ^^^ e) ∧ (∀ c, InCode c → popcount e ≤ popcount (v ^^^ c)) ∧ (popcount e = 4 → e.getLsbD 0 = true)

/-- The table is a bijection on 0..23 (R39, R284). -/
def IsBijection (p : Perm) : Prop :=
  (∀ i : Point, p[i].toNat < 24) ∧ ∀ i j : Point, p[i] = p[j] → i = j

/-- S is the set of Selected cells (R238). -/
def IsSelection (g : Vector Cell 24) (S : Vec) : Prop := ∀ i : Point, S.getLsbD i = (g[i] == .selected)

/-- A command with one error: its code where the operands are outside the domain, else 0 (R320). -/
def CodeIf (outside : Prop) (error code : BitVec 4) : Prop := (outside → code = error) ∧ (¬ outside → code = 0#4)

/-- What a completion of the set S reports (R320, R323): AmbiguousInput (3), NoCompletion (2) or 0. -/
def CompletionCode (S : Vec) (code : BitVec 4) : Prop :=
  (popcount S < 5 → code = 3#4) ∧
  (5 ≤ popcount S → (∀ O, IsOctad O → ¬ Within S O) → code = 2#4) ∧
  (5 ≤ popcount S → (∃ O, IsOctad O ∧ Within S O) → code = 0#4)

/-- The code a legal command reports at its completion, command by command, as R320's table gives the causes. -/
def ReportsCode (s : State) (code : BitVec 4) : Instr → Prop
  | .nop         => code = 0#4
  | .hexl p      => CodeIf (p > 15) 1#4 code
  | .hexv _      => code = 0#4
  | .hexs _      => code = 0#4
  | .enc _ _     => code = 0#4
  | .syn _       => code = 0#4
  | .iscw _      => code = 0#4
  | .dec _ _     => code = 0#4
  | .cmpl _ a    => CompletionCode s.v[a] code
  | .octf _      => code = 0#4
  | .octr _ k    => CodeIf (k ≥ 759) 1#4 code
  | .sel pt      => CodeIf (pt ≥ 24) 1#4 code
  | .desel pt    => CodeIf (pt ≥ 24) 1#4 code
  | .grst        => code = 0#4
  | .gcmpl _     => ∀ S, IsSelection s.grid S → CompletionCode S code
  | .gdec _      => code = 0#4
  | .gmask _ k   => CodeIf (k > 3) 1#4 code
  | .gapply n    => CodeIf (n ≠ 1 ∧ n ≠ 2 ∧ n ≠ 3) 4#4 code
  | .gperm a     => CodeIf (¬ IsBijection s.p[a]) 1#4 code
  | .pgen _ n    => CodeIf (n ≠ 1 ∧ n ≠ 2 ∧ n ≠ 3) 4#4 code
  | .pid _       => code = 0#4
  | .pcomp _ a b => CodeIf (¬ IsBijection s.p[a] ∨ ¬ IsBijection s.p[b]) 1#4 code
  | .pinv _ a    => CodeIf (¬ IsBijection s.p[a]) 1#4 code
  | .papv _ a _  => CodeIf (¬ IsBijection s.p[a]) 1#4 code
  | .ptest _     => code = 0#4

/-- The host's next step resets the core: the platform's reset (R360), or a CTRL write with SRST = 1 (R361). -/
def State.ResetNext (s : State) : Prop :=
  s.nextStmt = some .powerReset ∨ ∃ x : Word, x.getLsbD 0 = true ∧ s.nextStmt = some (.wr 4 0x004#12 x)

end Sys2Proof.Machine
end

