-- ==== Sys2Proof/Certificates/Slice0/Obligations.lean ====
section
/-! DEFINITION. The statements for the provers. Each docstring names the rules of the spec it formalises. -/

open Sys2Proof Sys2Proof.Machine

/-- (match, mask) of the 25 rows, as spec/opcode_table.json and R112, R114 give them. -/
def opcodeRows : List (Word × Word) :=
  [(0x00000000#32, 0xFFFFFFFF#32), (0x00000001#32, 0x000FFFFF#32), (0x00000002#32, 0x000FFFFF#32), (0x00000003#32, 0xFFFF8FFF#32),
   (0x00000010#32, 0x000FF8FF#32), (0x00000011#32, 0xFFFF8FFF#32), (0x00000012#32, 0xFFFF8FFF#32), (0x00000013#32, 0xFFFF88FF#32),
   (0x00000020#32, 0xFFFF88FF#32), (0x00000021#32, 0xFFFF8FFF#32), (0x00000022#32, 0x000FF8FF#32), (0x00000030#32, 0x000FFFFF#32),
   (0x00000031#32, 0x000FFFFF#32), (0x00000032#32, 0xFFFFFFFF#32), (0x00000033#32, 0xFFFFF8FF#32), (0x00000034#32, 0xFFFFF8FF#32),
   (0x00000035#32, 0x000FF8FF#32), (0x00000036#32, 0x000FFFFF#32), (0x00000037#32, 0xFFFFCFFF#32), (0x00000040#32, 0x000FFCFF#32),
   (0x00000041#32, 0xFFFFFCFF#32), (0x00000042#32, 0xFFFCCCFF#32), (0x00000043#32, 0xFFFFCCFF#32), (0x00000044#32, 0xFFF8C8FF#32),
   (0x00000045#32, 0xFFFFCFFF#32)]

/-- The 64 hexacode words as R158 lists them. -/
def hexacodeListing : List (BitVec 12) :=
  [0x000#12, 0x055#12, 0x0AA#12, 0x0FF#12, 0x11E#12, 0x14B#12, 0x1B4#12, 0x1E1#12,
   0x227#12, 0x272#12, 0x28D#12, 0x2D8#12, 0x339#12, 0x36C#12, 0x393#12, 0x3C6#12,
   0x41B#12, 0x44E#12, 0x4B1#12, 0x4E4#12, 0x505#12, 0x550#12, 0x5AF#12, 0x5FA#12,
   0x63C#12, 0x669#12, 0x696#12, 0x6C3#12, 0x722#12, 0x777#12, 0x788#12, 0x7DD#12,
   0x82D#12, 0x878#12, 0x887#12, 0x8D2#12, 0x933#12, 0x966#12, 0x999#12, 0x9CC#12,
   0xA0A#12, 0xA5F#12, 0xAA0#12, 0xAF5#12, 0xB14#12, 0xB41#12, 0xBBE#12, 0xBEB#12,
   0xC36#12, 0xC63#12, 0xC9C#12, 0xCC9#12, 0xD28#12, 0xD7D#12, 0xD82#12, 0xDD7#12,
   0xE11#12, 0xE44#12, 0xEBB#12, 0xEEE#12, 0xF0F#12, 0xF5A#12, 0xFA5#12, 0xFF0#12]

/-- The last column of R157's table: what HEXL returns for patterns 0 to 15. -/
def hexlListing : List Word :=
  [0x01#32, 0x41#32, 0x52#32, 0x12#32, 0x64#32, 0x24#32, 0x38#32, 0x78#32,
   0x78#32, 0x38#32, 0x24#32, 0x64#32, 0x12#32, 0x52#32, 0x41#32, 0x01#32]

/-- IMM, B, A, D and OP of a command, as numbers, an unused field 0 (R110, R111, R114). -/
def wordFields : Instr → Nat × Nat × Nat × Nat × Nat
  | .nop         => (0, 0, 0, 0, 0x00)
  | .hexl p      => (p, 0, 0, 0, 0x01)
  | .hexv h      => (h.toNat, 0, 0, 0, 0x02)
  | .hexs a      => (0, 0, a.val, 0, 0x03)
  | .enc d x     => (x.toNat, 0, 0, d.val, 0x10)
  | .syn a       => (0, 0, a.val, 0, 0x11)
  | .iscw a      => (0, 0, a.val, 0, 0x12)
  | .dec d a     => (0, 0, a.val, d.val, 0x13)
  | .cmpl d a    => (0, 0, a.val, d.val, 0x20)
  | .octf a      => (0, 0, a.val, 0, 0x21)
  | .octr d k    => (k, 0, 0, d.val, 0x22)
  | .sel pt      => (pt, 0, 0, 0, 0x30)
  | .desel pt    => (pt, 0, 0, 0, 0x31)
  | .grst        => (0, 0, 0, 0, 0x32)
  | .gcmpl d     => (0, 0, 0, d.val, 0x33)
  | .gdec d      => (0, 0, 0, d.val, 0x34)
  | .gmask d k   => (k, 0, 0, d.val, 0x35)
  | .gapply n    => (n, 0, 0, 0, 0x36)
  | .gperm a     => (0, 0, a.val, 0, 0x37)
  | .pgen d n    => (n, 0, 0, d.val, 0x40)
  | .pid d       => (0, 0, 0, d.val, 0x41)
  | .pcomp d a b => (0, b.val, a.val, d.val, 0x42)
  | .pinv d a    => (0, 0, a.val, d.val, 0x43)
  | .papv d a b  => (0, b.val, a.val, d.val, 0x44)
  | .ptest a     => (0, 0, a.val, 0, 0x45)

/-- The image of i under disjoint transpositions. -/
def swapBy : List (Nat × Nat) → Nat → Nat
  | [],          i => i
  | (a, b) :: l, i => if i = a then b else if i = b then a else swapBy l i

/-! ## Encoding (30_encoding.md) -/

/-- Decoding an encoded well-formed command gives it back, for all 25 commands and every operand value (R110, R111, R118). -/
def Obligations.DecodeOfEncode : Prop :=
  ∀ i : Instr, i.wellFormed = true → decode (encode i) = some i

/-- A legal word is the encoding of exactly the command it decodes to, and that command is well formed (R115, R116). -/
def Obligations.EncodeOfDecode : Prop :=
  ∀ (w : Word) (i : Instr), decode w = some i → encode i = w ∧ i.wellFormed = true

/-- R116 with R112 and R114: the legal words are those that fit one of the 25 (match, mask) rows, and no word fits two. -/
def Obligations.LegalWordsAreTheOpcodeTable : Prop :=
  ∀ w : Word,
    ((∃ i, decode w = some i) ↔ ∃ r ∈ opcodeRows, w &&& r.2 = r.1) ∧
    (∀ r ∈ opcodeRows, ∀ r' ∈ opcodeRows, w &&& r.2 = r.1 → w &&& r'.2 = r'.1 → r = r')

/-- R119: the worked encodings, both ways. -/
def Obligations.WorkedEncodings : Prop :=
  (encode (.enc 1 0x5A3#12) = 0x5A300110#32 ∧ decode 0x5A300110#32 = some (.enc 1 0x5A3#12)) ∧
  (encode (.dec 2 1) = 0x00001213#32 ∧ decode 0x00001213#32 = some (.dec 2 1)) ∧
  (encode (.pcomp 2 0 1) = 0x00010242#32 ∧ decode 0x00010242#32 = some (.pcomp 2 0 1)) ∧
  (encode (.pgen 0 1) = 0x00100040#32 ∧ decode 0x00100040#32 = some (.pgen 0 1)) ∧
  (encode (.sel 4) = 0x00400030#32 ∧ decode 0x00400030#32 = some (.sel 4)) ∧
  (encode .nop = 0x00000000#32 ∧ decode 0x00000000#32 = some .nop)

/-- R118's assembled word `(IMM << 20) | (B << 16) | (A << 12) | (D << 8) | OP`, as a sum of the fields, with the opcode numbers
of R114. -/
def Obligations.AssembledWordIsItsFields : Prop :=
  ∀ i : Instr, i.wellFormed = true →
    (encode i).toNat = (wordFields i).1 * 2 ^ 20 + (wordFields i).2.1 * 2 ^ 16 + (wordFields i).2.2.1 * 2 ^ 12 +
      (wordFields i).2.2.2.1 * 2 ^ 8 + (wordFields i).2.2.2.2

/-! ## The step (70_reset_and_hazards.md, 20_memory.md) -/

/-- R370: when the pending command's completion is due and its word decodes, the step is that command's execution. The due
condition is the model's reading of LATENCY (assumption log 1). -/
def Obligations.StepRunsThePendingCommand : Prop :=
  ∀ (s : State) (q : Pending) (i : Instr), s.due q → decode q.word = some i → step s = exec i s

/-- R30, R81: with no command pending the step is the host's; with one pending and not yet due it is the host's too, and only the
model's delay counter moves besides (assumption log 1). A host that is done leaves an idle core as it is (R343; assumption
log 7). -/
def Obligations.StepRunsTheHostOtherwise : Prop :=
  ∀ s : State,
    (s.pend = none → s.nextStmt = none → step s = .next s) ∧
    (∀ st, s.pend = none → s.nextStmt = some st → step s = runStmt st s) ∧
    (∀ st w n, s.pend = some { word := w, delay := n + 1 } → s.nextStmt = some st → st ≠ .halt →
      step s = runStmt st { s with pend := some { word := w, delay := n } })

/-- R324: at every completion, of a legal or an illegal word, the completion fields are written so, and OVR is left alone; CTRL
and the host are not written either (R370). ERRCODE is the code R320 gives for the word and its operands: 5 for an illegal
word, else what R320's table says, command by command; 6-15 never. That the step at a due state is the completion is the
model's reading of LATENCY (assumption log 1). -/
def Obligations.CompletionFieldsAreWritten : Prop :=
  ∀ (s : State) (q : Pending), s.due q →
    ∃ t code, step s = .next t ∧ Completed (q.word.extractLsb' 0 8) code s t ∧ code.toNat ≤ 5 ∧
      (decode q.word = none → code = 5#4) ∧ ∀ i, decode q.word = some i → ReportsCode s code i

/-- R322: a completion with an error keeps V, P, SRES and GRID; only the completion fields change. -/
def Obligations.ErrorsCommitNothing : Prop :=
  ∀ (s t : State) (q : Pending), s.due q → step s = .next t → t.errCode ≠ 0#4 →
    DataKept s t ∧ Completed (q.word.extractLsb' 0 8) t.errCode s t

/-- R115, R321: a word that fits no row of the opcode table commits nothing at its completion and reports IllegalCommand (5) with
its own bits 7:0 in LASTOP. That the step at a due state is the completion is the model's reading of LATENCY (assumption
log 1). (That CMD accepts such a word is in CmdAccess.) -/
def Obligations.IllegalWordRaisesIllegalCommand : Prop :=
  ∀ (s : State) (q : Pending), s.due q → (∀ r ∈ opcodeRows, q.word &&& r.2 ≠ r.1) →
    ∃ t, step s = .next t ∧ Completed (q.word.extractLsb' 0 8) 5#4 s t ∧ DataKept s t

/-- R372: every accepted command completes, unless a reset discards it first: after at most `delay` steps a step comes that is
this command's completion (it is due, and the completion fields are written) or a reset of the core, and no other command
has been accepted before it. The delay and the bound are the model's (assumption log 1), and so are what a reset leaves of
the host's fields and the counter of accepted commands (assumption log 5, 15). (The host's program asks for no access the
interface lacks.) -/
def Obligations.PendingCommandCompletes : Prop :=
  ∀ (s : State) (q : Pending), s.pend = some q → s.cleanProgram = true →
    ∃ k u r t, k ≤ q.delay ∧ Reaches k s u ∧ u.pend = some r ∧ r.word = q.word ∧ u.issued = s.issued ∧ step u = .next t ∧
      ((u.due r ∧ ∃ code, Completed (q.word.extractLsb' 0 8) code u t) ∨
        (u.ResetNext ∧
          t = { State.reset with prog := u.prog, pos := u.pos + 1, vars := u.vars, issued := u.issued }))

/-- R41, R377, R85, R45: while a command stays pending, neither its word nor anything a command reads or writes changes, so the
operands at completion are those at acceptance and a read returns the value before the command; the fields only a
completion writes stay too. -/
def Obligations.DataStaysWhileCommandIsPending : Prop :=
  ∀ (s t : State) (q r : Pending), s.pend = some q → step s = .next t → t.pend = some r →
    r.word = q.word ∧ DataKept s t ∧ t.err = s.err ∧ t.errCode = s.errCode ∧ t.lastOp = s.lastOp

/-- R371, R372, R375: a host that writes a command word to an idle core and then runs `wait` (R121) comes past the wait with the
command's results committed, whatever the latency: they are the results of running the command at once, and the host holds
the final STATUS. The number of steps is the model's (assumption log 1), and the statement says none; the host's position and
its variables are the model's executable host statements (assumption log 6, 18). -/
def Obligations.IssueAndWaitRunsTheCommand : Prop :=
  ∀ (s : State) (w : Word), s.pend = none → s.prog[s.pos]? = some (.wr 4 0x00C#12 w) →
    s.prog[s.pos + 1]? = some (.rd 4 0x008#12) → s.prog[s.pos + 2]? = some (.bnz 0x008#12 0 1 (s.pos + 1)) →
    ∃ k t u, Reaches k s t ∧ completionStep w s = .next u ∧ DataKept u t ∧
      t.pend = none ∧ t.done = true ∧ t.errCode = u.errCode ∧ t.err = u.err ∧ t.lastOp = w.extractLsb' 0 8 ∧
      t.ovr = s.ovr ∧ t.ie = s.ie ∧ t.prog = s.prog ∧ t.pos = s.pos + 3 ∧ t.hostVar 0x008#12 = t.statusWord

/-! ## Reset (10_state.md R46; 70_reset_and_hazards.md) -/

/-- R46: every piece of writable state right after reset, read through the window. -/
def Obligations.ResetValues : Prop :=
  (∀ i : Fin 8, State.reset.busRead (vOffset i) = 0#32) ∧
  (∀ (i : Fin 4) (j : Fin 24), State.reset.busRead (pOffset i j) = BitVec.ofNat 32 j.val) ∧
  State.reset.busRead 0x010#12 = 0#32 ∧ State.reset.busRead 0x014#12 = 0#32 ∧ State.reset.busRead 0x018#12 = 0#32 ∧
  (∀ i : Fin 24, State.reset.grid[i] = .unselected) ∧
  State.reset.busRead 0x004#12 = 0#32 ∧ State.reset.busRead 0x008#12 = 0#32 ∧
  State.reset.pend = none ∧ State.reset.irq = false ∧ State.reset.busRead 0x000#12 = 0x4D4F4701#32

/-- R361 (and R35): a CTRL write with SRST = 1 puts every piece of writable state at its reset value from any state, a pending
command is discarded, and the IE bit of the write is discarded. R360: the platform's reset does the same. That
this reset is an event in the host's statement list (assumption log 5), that it comes where no completion is due
(assumption log 1), and that the host's program and variables stay (assumption log 5, 15) are the model's choices. -/
def Obligations.ResetFromAnyState : Prop :=
  ∀ (s t : State) (x : Word),
    ((x.getLsbD 0 = true ∧ t = s.busWrite 0x004#12 x) ∨
      ((∀ q, ¬ s.due q) ∧ s.nextStmt = some .powerReset ∧ step s = .next t)) →
    (∀ i : Fin 8, t.v[i] = 0#24) ∧ (∀ (i : Fin 4) (j : Fin 24), (t.p[i])[j] = BitVec.ofNat 5 j.val) ∧ t.sres = 0#32 ∧
    (∀ i : Fin 24, t.grid[i] = .unselected) ∧ t.ie = false ∧ t.busRead 0x008#12 = 0#32 ∧ t.pend = none ∧
    t.irq = false ∧ t.prog = s.prog ∧ t.vars = s.vars

/-! ## The register window (10_state.md, 20_memory.md) -/

/-- R35: CTRL reads IE at bit 1 and 0 elsewhere; a write with SRST = 0 sets IE from bit 1 and nothing else, busy or not. -/
def Obligations.CtrlAccess : Prop :=
  ∀ (s : State) (x : Word),
    s.busRead 0x004#12 = (if s.ie = true then 0x2#32 else 0x0#32) ∧
    (x.getLsbD 0 = false → s.busWrite 0x004#12 x = { s with ie := x.getLsbD 1 })

/-- R36: the fields of STATUS where R36 places them, and a write that clears DONE and OVR where the written bit is 1 and does
nothing else, busy or not. -/
def Obligations.StatusAccess : Prop :=
  ∀ (s : State) (x : Word),
    (s.busRead 0x008#12).getLsbD 0 = s.pend.isSome ∧ (s.busRead 0x008#12).getLsbD 1 = s.done ∧
    (s.busRead 0x008#12).getLsbD 2 = s.ovr ∧ (s.busRead 0x008#12).getLsbD 3 = s.err ∧
    (s.busRead 0x008#12).extractLsb' 4 4 = s.errCode ∧ (s.busRead 0x008#12).extractLsb' 8 8 = s.lastOp ∧
    (s.busRead 0x008#12).extractLsb' 16 16 = 0#16 ∧
    s.busWrite 0x008#12 x =
      { s with done := (if x.getLsbD 1 = true then false else s.done), ovr := (if x.getLsbD 2 = true then false else s.ovr) }

/-- R37, R38: CMD reads 0; a write while BUSY = 0 latches the word and sets BUSY, and nothing else that the spec gives the machine
changes (the delay and the counter of accepted commands are the model's own: assumption log 1, 15); a write while BUSY = 1
changes nothing but sets OVR. -/
def Obligations.CmdAccess : Prop :=
  ∀ (s : State) (x : Word),
    s.busRead 0x00C#12 = 0#32 ∧
    (s.pend = none → ∃ n, s.busWrite 0x00C#12 x = { s with pend := some { word := x, delay := n }, issued := s.issued + 1 }) ∧
    (s.pend.isSome = true → s.busWrite 0x00C#12 x = { s with ovr := true })

/-- R32, R38: Vi at 0x020 + 4*i reads its 24 bits and 0 above; an idle core takes the low 24 bits of a write to it and nothing
else changes; a busy one only sets OVR. -/
def Obligations.VectorRegisterAccess : Prop :=
  ∀ (s : State) (i : Fin 8) (x : Word),
    (s.busRead (BitVec.ofNat 12 (0x020 + 4 * i.val))).extractLsb' 0 24 = s.v[i] ∧
    (s.busRead (BitVec.ofNat 12 (0x020 + 4 * i.val))).extractLsb' 24 8 = 0#8 ∧
    (s.pend = none →
      s.busWrite (BitVec.ofNat 12 (0x020 + 4 * i.val)) x = { s with v := s.v.set i (x.extractLsb' 0 24) }) ∧
    (s.pend.isSome = true → s.busWrite (BitVec.ofNat 12 (0x020 + 4 * i.val)) x = { s with ovr := true })

/-- R39, R38, R72: entry j of Pi at 0x100 + 0x80*i + 4*j reads its 5 bits and 0 above; an idle core stores bits 4:0 of a write
exactly as written, and no other entry and nothing else changes; a busy one only sets OVR. -/
def Obligations.PermutationEntryAccess : Prop :=
  ∀ (s : State) (i : Fin 4) (j : Fin 24) (x : Word),
    (s.busRead (BitVec.ofNat 12 (0x100 + 0x80 * i.val + 4 * j.val))).extractLsb' 0 5 = (s.p[i])[j] ∧
    (s.busRead (BitVec.ofNat 12 (0x100 + 0x80 * i.val + 4 * j.val))).extractLsb' 5 27 = 0#27 ∧
    (s.pend = none → ∃ t, s.busWrite (BitVec.ofNat 12 (0x100 + 0x80 * i.val + 4 * j.val)) x = t ∧
      (t.p[i])[j] = x.extractLsb' 0 5 ∧ (∀ (i' : Fin 4) (j' : Fin 24), (i', j') ≠ (i, j) → (t.p[i'])[j'] = (s.p[i'])[j']) ∧
      t = { s with p := t.p }) ∧
    (s.pend.isSome = true → s.busWrite (BitVec.ofNat 12 (0x100 + 0x80 * i.val + 4 * j.val)) x = { s with ovr := true })

/-- R73: a write to an offset that is not CTRL, STATUS, CMD, a vector register or a permutation entry is ignored, busy or not, and
an offset that is no register at all reads 0. The offsets are the multiples of 4 (R75). -/
def Obligations.UnmappedAndReadOnlyOffsets : Prop :=
  ∀ (s : State) (off : Offset) (x : Word), off.toNat % 4 = 0 →
    off ≠ 0x004#12 → off ≠ 0x008#12 → off ≠ 0x00C#12 → (∀ i : Fin 8, off ≠ BitVec.ofNat 12 (0x020 + 4 * i.val)) →
    (∀ (i : Fin 4) (j : Fin 24), off ≠ BitVec.ofNat 12 (0x100 + 0x80 * i.val + 4 * j.val)) →
    s.busWrite off x = s ∧
    (off ≠ 0x000#12 → off ≠ 0x010#12 → off ≠ 0x014#12 → off ≠ 0x018#12 → s.busRead off = 0#32)

/-- R34, R33, R40: ID, SRES, GRID_LO and GRID_HI as the host reads them; GRID[j] at bits 2j+1:2j. -/
def Obligations.ReadOnlyRegisters : Prop :=
  ∀ s : State,
    s.busRead 0x000#12 = 0x4D4F4701#32 ∧ s.busRead 0x010#12 = s.sres ∧
    (∀ (j : Nat) (h : j < 16), (s.busRead 0x014#12).extractLsb' (2 * j) 2 = (s.grid[j]).code) ∧
    (∀ (j : Nat) (h : j < 8), (s.busRead 0x018#12).extractLsb' (2 * j) 2 = (s.grid[16 + j]).code) ∧
    (s.busRead 0x018#12).extractLsb' 16 16 = 0#16 ∧
    Cell.code .unselected = 0b00#2 ∧ Cell.code .selected = 0b01#2 ∧ Cell.code .highlightedOctad = 0b10#2 ∧
    Cell.code .highlightedError = 0b11#2

/-- R78, R81, R120, R38 'Host reads are never blocked': the host's step with no command pending (u is s), and with one pending
and not due (u is s with the model's delay one less; assumption log 1). A read at an aligned offset keeps the committed value
in the host's variable and changes nothing else but the position; a write is the register's write and the same move; `bnz`
and `bz` go to the label as the field of the last value read says; `jmp` goes there. Position and variables are the model's
executable host statements (assumption log 6, 18); an unread variable is a free value (assumption log 4). -/
def Obligations.HostAccessSteps : Prop :=
  ∀ s u : State,
    ((s.pend = none ∧ u = s) ∨
      ∃ w n, s.pend = some { word := w, delay := n + 1 } ∧ u = { s with pend := some { word := w, delay := n } }) →
    (∀ off : Offset, off.toNat % 4 = 0 → s.nextStmt = some (.rd 4 off) →
      ∃ t, step s = .next t ∧ t.hostVar off = s.busRead off ∧ (∀ o : Offset, o ≠ off → t.hostVar o = s.hostVar o) ∧
        t = { u with vars := t.vars, pos := s.pos + 1 }) ∧
    (∀ (off : Offset) (x : Word), off.toNat % 4 = 0 → s.nextStmt = some (.wr 4 off x) →
      step s = .next { u.busWrite off x with pos := s.pos + 1 }) ∧
    (∀ (reg : Offset) (lo width target : Nat), s.nextStmt = some (.bnz reg lo width target) →
      step s = .next { u with pos := if (s.hostVar reg).extractLsb' lo width = 0#width then s.pos + 1 else target }) ∧
    (∀ (reg : Offset) (lo width target : Nat), s.nextStmt = some (.bz reg lo width target) →
      step s = .next { u with pos := if (s.hostVar reg).extractLsb' lo width = 0#width then target else s.pos + 1 }) ∧
    (∀ target : Nat, s.nextStmt = some (.jmp target) → step s = .next { u with pos := target })

/-- R75: an access that is not one 32-bit word at a multiple of 4 is no step of the interface: it is refused, pending or not. That
a wrong width is named before a wrong offset is the model's choice (assumption log 10). -/
def Obligations.AccessOutsideTheInterfaceIsRefused : Prop :=
  ∀ (s : State) (bytes : Nat) (off : Offset) (x : Word), bytes ≠ 4 ∨ off.toNat % 4 ≠ 0 →
    s.nextStmt = some (.rd bytes off) ∨ s.nextStmt = some (.wr bytes off x) →
    (∀ q, s.pend = some q → q.delay ≠ 0) →
    step s = .refused (if bytes ≠ 4 then .accessWidth bytes else .misaligned off)

/-- R330, R42: irq is IE and DONE; after a completion it is IE; writing 1 to STATUS bit 1 lowers it; clearing IE lowers it and
leaves DONE. When a completion comes is the model's reading of LATENCY (assumption log 1). -/
def Obligations.InterruptLine : Prop :=
  ∀ (s t : State) (q : Pending) (x : Word),
    (s.irq = (s.ie && s.done)) ∧
    (s.due q → step s = .next t → t.irq = s.ie) ∧
    (x.getLsbD 1 = true → (s.busWrite 0x008#12 x).irq = false ∧ (s.busWrite 0x008#12 x).done = false) ∧
    (x.getLsbD 0 = false → x.getLsbD 1 = false →
      (s.busWrite 0x004#12 x).irq = false ∧ (s.busWrite 0x004#12 x).done = s.done)

/-- R325, D29: while the host asks for no access the interface lacks, every step goes on: no error, no word and no access stops
the machine. -/
def Obligations.CleanProgramsNeverStop : Prop :=
  ∀ s : State, s.cleanProgram = true → ∃ t, step s = .next t ∧ t.cleanProgram = true

/-- The invariant (R36 'ERR always equals (ERRCODE != 0)', R320 'never reported') holds after reset. Its
third clause, the canonical form of the host variables, is the model's own: the representation of assumption log 18 at the
start value of assumption log 15. -/
def Obligations.InvariantAtReset : Prop := State.reset.Inv

/-- Every step keeps the invariant, from every state that has it: ERR and ERRCODE as R36, R320 and R324 say, and the canonical
form of the host variables, which is the model's own representation (assumption log 15, 18). -/
def Obligations.StepKeepsTheInvariant : Prop :=
  ∀ s t : State, s.Inv → step s = .next t → t.Inv

/-- Which commands can change which data (R32, R33, R39, R40): V only ENC, DEC, CMPL, OCTR, GCMPL, GDEC, GMASK, PAPV; P only PGEN,
PID, PCOMP, PINV; the grid only SEL, DESEL, GRST, GCMPL, GDEC, GAPPLY, GPERM; SRES only HEXL, HEXV, HEXS, SYN, ISCW, DEC,
CMPL, OCTF, GCMPL, GDEC, PTEST. -/
def Obligations.OnlyTheseCommandsWrite : Prop :=
  ∀ (i : Instr) (s t : State), exec i s = .next t →
    (t.v ≠ s.v → i.opcode ∈ [0x10#8, 0x13#8, 0x20#8, 0x22#8, 0x33#8, 0x34#8, 0x35#8, 0x44#8]) ∧
    (t.p ≠ s.p → i.opcode ∈ [0x40#8, 0x41#8, 0x42#8, 0x43#8]) ∧
    (t.grid ≠ s.grid → i.opcode ∈ [0x30#8, 0x31#8, 0x32#8, 0x33#8, 0x34#8, 0x36#8, 0x37#8]) ∧
    (t.sres ≠ s.sres →
      i.opcode ∈ [0x01#8, 0x02#8, 0x03#8, 0x11#8, 0x12#8, 0x13#8, 0x20#8, 0x21#8, 0x33#8, 0x34#8, 0x45#8])

/-! ## Hexacode commands (40_hexacode.md) -/

/-- R165, R157: HEXL of a pattern 0-15 puts R157's word in SRES; a larger IMM raises InvalidPattern (1). -/
def Obligations.HexlLooksUpThePattern : Prop :=
  ∀ (s : State) (p : Nat),
    (p ≤ 15 → ∃ t, exec (.hexl p) s = .next t ∧ Completed 0x01#8 0#4 s t ∧ t.sres = hexlListing.getD p 0#32 ∧
      t.v = s.v ∧ t.p = s.p ∧ t.grid = s.grid) ∧
    (p > 15 → Raises (.hexl p) 1#4 s)

/-- R166, R158: HEXV answers 1 for the 64 listed words and 0 for every other. -/
def Obligations.HexvTestsTheHexacode : Prop :=
  ∀ (s : State) (h : BitVec 12), ∃ t, exec (.hexv h) s = .next t ∧ Completed 0x02#8 0#4 s t ∧
    t.sres = (if h ∈ hexacodeListing then 1#32 else 0#32) ∧ t.v = s.v ∧ t.p = s.p ∧ t.grid = s.grid

/-- R167 with R151-R154 and R158: every field of HEXS's result, from the bits of the vector. -/
def Obligations.HexsReducesTheColumns : Prop :=
  ∀ (s : State) (a : VReg), ∃ t, exec (.hexs a) s = .next t ∧ Completed 0x03#8 0#4 s t ∧
    t.v = s.v ∧ t.p = s.p ∧ t.grid = s.grid ∧
    (∀ c : Fin 6, t.sres.extractLsb' (2 * c.val) 2 =
      (if s.v[a].getLsbD (6 + c.val) = true then 0b01#2 else 0b00#2) ^^^
      (if s.v[a].getLsbD (12 + c.val) = true then 0b10#2 else 0b00#2) ^^^
      (if s.v[a].getLsbD (18 + c.val) = true then 0b11#2 else 0b00#2)) ∧
    (∀ c : Fin 6, t.sres.getLsbD (12 + c.val) =
      (s.v[a].getLsbD c.val ^^ s.v[a].getLsbD (6 + c.val) ^^ s.v[a].getLsbD (12 + c.val) ^^ s.v[a].getLsbD (18 + c.val))) ∧
    t.sres.getLsbD 18 = (s.v[a].getLsbD 0 ^^ s.v[a].getLsbD 1 ^^ s.v[a].getLsbD 2 ^^ s.v[a].getLsbD 3 ^^
      s.v[a].getLsbD 4 ^^ s.v[a].getLsbD 5) ∧
    (t.sres.getLsbD 19 = true ↔ t.sres.extractLsb' 0 12 ∈ hexacodeListing) ∧
    (t.sres.getLsbD 20 = true ↔ ∀ c : Fin 6, t.sres.getLsbD (12 + c.val) = t.sres.getLsbD 18) ∧
    t.sres.getLsbD 21 = (t.sres.getLsbD 19 && t.sres.getLsbD 20) ∧ t.sres.extractLsb' 22 10 = 0#10

/-- R160, R181, R167 'SRES[21] equals the ISCW result for every v': the MOG criterion is membership in the code C, for all 2^24
vectors. -/
def Obligations.MogCriterionIsTheGolayCode : Prop :=
  ∀ (s : State) (a : VReg), ∃ t u, exec (.hexs a) s = .next t ∧ exec (.iscw a) s = .next u ∧
    (t.sres.getLsbD 21 = true ↔ InCode s.v[a]) ∧ t.sres.getLsbD 21 = u.sres.getLsbD 0

/-! ## Golay commands (41_golay.md) -/

/-- R190, R183: ENC gives the unique codeword whose bits at INFO are the data. -/
def Obligations.EncGivesTheCodewordOfTheData : Prop :=
  ∀ (s : State) (d : VReg) (x : BitVec 12), ∃ t, exec (.enc d x) s = .next t ∧ Completed 0x10#8 0#4 s t ∧
    OtherV d s t ∧ t.p = s.p ∧ t.sres = s.sres ∧ t.grid = s.grid ∧
    InCode t.v[d] ∧ (∀ k : Fin 12, t.v[d].getLsbD infoSet[k] = x.getLsbD k.val) ∧
    (∀ c, InCode c → (∀ k : Fin 12, c.getLsbD infoSet[k] = x.getLsbD k.val) → c = t.v[d])

/-- R191, R184: bit k of SYN's result is the parity of V[A] & B[k]; the result is 12 bits. -/
def Obligations.SynGivesTheSyndrome : Prop :=
  ∀ (s : State) (a : VReg), ∃ t, exec (.syn a) s = .next t ∧ Completed 0x11#8 0#4 s t ∧
    t.v = s.v ∧ t.p = s.p ∧ t.grid = s.grid ∧
    (∀ k : Fin 12, t.sres.getLsbD k.val = decide (popcount (s.v[a] &&& basis[k]) % 2 = 1)) ∧
    t.sres.extractLsb' 12 20 = 0#20

/-- R192, R184 'syndrome(v) = 0 exactly when v is in C': ISCW answers 1 for the members of the basis's span and 0 for all else. -/
def Obligations.IscwTestsMembership : Prop :=
  ∀ (s : State) (a : VReg), ∃ t, exec (.iscw a) s = .next t ∧ Completed 0x12#8 0#4 s t ∧
    t.v = s.v ∧ t.p = s.p ∧ t.grid = s.grid ∧
    (InCode s.v[a] → t.sres = 1#32) ∧ (¬ InCode s.v[a] → t.sres = 0#32)

/-- R193, R186, R185, R195: DEC replaces any vector by a nearest codeword, at distance at most 4, the point-0 tetrad at a tie, and
reports the flipped points, their number and the tie. -/
def Obligations.DecGivesTheNearestCodeword : Prop :=
  ∀ (s : State) (d a : VReg), ∃ t e, exec (.dec d a) s = .next t ∧ Completed 0x13#8 0#4 s t ∧
    OtherV d s t ∧ t.p = s.p ∧ t.grid = s.grid ∧
    IsLeader s.v[a] e ∧ popcount e ≤ 4 ∧ t.v[d] = s.v[a] ^^^ e ∧
    t.sres.extractLsb' 0 24 = e ∧ (t.sres.extractLsb' 24 3).toNat = popcount e ∧
    t.sres.getLsbD 27 = decide (popcount e = 4) ∧ t.sres.extractLsb' 28 4 = 0#4

/-- R187: up to 3 errors on a codeword are found and corrected exactly. -/
def Obligations.DecCorrectsUpToThreeErrors : Prop :=
  ∀ (s : State) (d a : VReg) (c e : Vec), InCode c → popcount e ≤ 3 → s.v[a] = c ^^^ e →
    ∃ t, exec (.dec d a) s = .next t ∧ Completed 0x13#8 0#4 s t ∧
      OtherV d s t ∧ t.p = s.p ∧ t.grid = s.grid ∧ t.v[d] = c ∧ t.sres.extractLsb' 0 24 = e ∧
      (t.sres.extractLsb' 24 3).toNat = popcount e ∧ t.sres.extractLsb' 27 5 = 0#5

/-- R188: the two-stage decoder that needs no search gives the leader of R185, for every vector; and so it gives what the model's
own search gives (assumption log 12). -/
def Obligations.StagedDecoderFindsTheLeader : Prop :=
  ∀ v : Vec, IsLeader v (stagedLeader v) ∧ stagedLeader v = leader v

/-! ## Octad commands (42_octad.md) -/

/-- R90, R210: OCTROM lists exactly the octads, 759 of them, in strictly increasing order. -/
def Obligations.OctromIsTheOctads : Prop :=
  octRom.length = 759 ∧ octRom.Pairwise (fun x y => x.toNat < y.toNat) ∧ ∀ v : Vec, v ∈ octRom ↔ IsOctad v

/-- R220, R211: a set of 5 or more points that lies in an octad is completed to it, and the added points are reported; fewer than
5 points is AmbiguousInput (3); 5 or more in no octad is NoCompletion (2). -/
def Obligations.CmplCompletesToTheOctad : Prop :=
  ∀ (s : State) (d a : VReg),
    (∀ O, 5 ≤ popcount s.v[a] → IsOctad O → Within s.v[a] O →
      ∃ t, exec (.cmpl d a) s = .next t ∧ Completed 0x20#8 0#4 s t ∧ OtherV d s t ∧ t.p = s.p ∧ t.grid = s.grid ∧
        t.v[d] = O ∧ t.sres = (O &&& ~~~ s.v[a]).setWidth 32) ∧
    (popcount s.v[a] < 5 → Raises (.cmpl d a) 3#4 s) ∧
    (5 ≤ popcount s.v[a] → (∀ O, IsOctad O → ¬ Within s.v[a] O) → Raises (.cmpl d a) 2#4 s)

/-- R210 'Any 5 distinct points lie in exactly one octad', and R211 'n = 5 always gives Ok': CMPL of 5 points never fails. -/
def Obligations.FivePointsLieInOneOctad : Prop :=
  ∀ (s : State) (d a : VReg), popcount s.v[a] = 5 →
    (∃ O, (IsOctad O ∧ Within s.v[a] O) ∧ ∀ O', IsOctad O' → Within s.v[a] O' → O' = O) ∧
    ∃ t, exec (.cmpl d a) s = .next t ∧ Completed 0x20#8 0#4 s t ∧ IsOctad t.v[d] ∧ Within s.v[a] t.v[d]

/-- R212: completion through the decoder agrees with R211 for 5 to 8 points. -/
def Obligations.CompletionThroughTheDecoder : Prop :=
  ∀ S : Vec, 5 ≤ popcount S → popcount S ≤ 8 → completionByDecoder S = completion S

/-- R221, R213: the binary search counts the octads below x, and reports whether x is one. -/
def Obligations.OctfCountsTheOctadsBelow : Prop :=
  ∀ (s : State) (a : VReg), ∃ t, exec (.octf a) s = .next t ∧ Completed 0x21#8 0#4 s t ∧
    t.v = s.v ∧ t.p = s.p ∧ t.grid = s.grid ∧
    (t.sres.extractLsb' 0 10).toNat = octRom.countP (fun O => decide (O.toNat < s.v[a].toNat)) ∧
    t.sres.getLsbD 31 = decide (s.v[a] ∈ octRom) ∧ t.sres.extractLsb' 10 21 = 0#21

/-- R222, R221: OCTR reads the octad with exactly IMM octads below it, so that OCTF of it gives the index back; an index of 759
or more raises InvalidPattern (1). -/
def Obligations.OctrReadsByIndex : Prop :=
  ∀ (s : State) (d : VReg) (k : Nat),
    (k < 759 → ∃ t, exec (.octr d k) s = .next t ∧ Completed 0x22#8 0#4 s t ∧ OtherV d s t ∧ t.p = s.p ∧
      t.sres = s.sres ∧ t.grid = s.grid ∧ octRom[k]? = some t.v[d] ∧
      ∃ u, exec (.octf d) t = .next u ∧ u.sres.getLsbD 31 = true ∧ (u.sres.extractLsb' 0 10).toNat = k) ∧
    (k ≥ 759 → Raises (.octr d k) 1#4 s)

/-! ## Grid commands (43_grid.md) -/

/-- R240, R243: NOP changes only the completion fields; GRST makes every cell Unselected and leaves V, P and SRES. -/
def Obligations.NopAndGrst : Prop :=
  ∀ s : State,
    (∃ t, exec .nop s = .next t ∧ Completed 0x00#8 0#4 s t ∧ DataKept s t) ∧
    (∃ t, exec .grst s = .next t ∧ Completed 0x32#8 0#4 s t ∧ t.v = s.v ∧ t.p = s.p ∧ t.sres = s.sres ∧
      ∀ i : Point, t.grid[i] = .unselected)

/-- R241, R242: SEL and DESEL set the one cell and no other; a point above 23 raises InvalidPattern (1). -/
def Obligations.SelAndDesel : Prop :=
  ∀ (s : State) (n : Nat),
    (∀ h : n < 24,
      (∃ t, exec (.sel n) s = .next t ∧ Completed 0x30#8 0#4 s t ∧ t.v = s.v ∧ t.p = s.p ∧ t.sres = s.sres ∧
        t.grid[n] = .selected ∧ ∀ j : Point, j.val ≠ n → t.grid[j] = s.grid[j]) ∧
      (∃ t, exec (.desel n) s = .next t ∧ Completed 0x31#8 0#4 s t ∧ t.v = s.v ∧ t.p = s.p ∧ t.sres = s.sres ∧
        t.grid[n] = .unselected ∧ ∀ j : Point, j.val ≠ n → t.grid[j] = s.grid[j])) ∧
    (24 ≤ n → Raises (.sel n) 1#4 s ∧ Raises (.desel n) 1#4 s)

/-- R244, R238, R211: GCMPL completes the Selected cells and shows the octad in the grid; on an error nothing changes. -/
def Obligations.GcmplCompletesTheGrid : Prop :=
  ∀ (s : State) (d : VReg) (S : Vec), IsSelection s.grid S →
    (∀ O, 5 ≤ popcount S → IsOctad O → Within S O →
      ∃ t, exec (.gcmpl d) s = .next t ∧ Completed 0x33#8 0#4 s t ∧ OtherV d s t ∧ t.p = s.p ∧
        t.v[d] = O ∧ t.sres = (O &&& ~~~ S).setWidth 32 ∧
        ∀ i : Point, t.grid[i] =
          (if S.getLsbD i = true then .selected else if O.getLsbD i = true then .highlightedOctad else .unselected)) ∧
    (popcount S < 5 → Raises (.gcmpl d) 3#4 s) ∧
    (5 ≤ popcount S → (∀ O, IsOctad O → ¬ Within S O) → Raises (.gcmpl d) 2#4 s)

/-- R245, R238, R195: GDEC decodes the Selected cells and shows the flipped points in the grid. -/
def Obligations.GdecDecodesTheGrid : Prop :=
  ∀ (s : State) (d : VReg) (S : Vec), IsSelection s.grid S →
    ∃ t e, exec (.gdec d) s = .next t ∧ Completed 0x34#8 0#4 s t ∧ OtherV d s t ∧ t.p = s.p ∧
      IsLeader S e ∧ popcount e ≤ 4 ∧ t.v[d] = S ^^^ e ∧
      t.sres.extractLsb' 0 24 = e ∧ (t.sres.extractLsb' 24 3).toNat = popcount e ∧
      t.sres.getLsbD 27 = decide (popcount e = 4) ∧ t.sres.extractLsb' 28 4 = 0#4 ∧
      ∀ i : Point, t.grid[i] =
        (if e.getLsbD i = true then .highlightedError else if S.getLsbD i = true then .selected else .unselected)

/-- R246: GMASK of a state code 0-3 gives the cells in that state; a larger IMM raises InvalidPattern (1). -/
def Obligations.GmaskReadsTheGrid : Prop :=
  ∀ (s : State) (d : VReg) (k : Nat),
    (k ≤ 3 → ∃ t, exec (.gmask d k) s = .next t ∧ Completed 0x35#8 0#4 s t ∧ OtherV d s t ∧ t.p = s.p ∧
      t.sres = s.sres ∧ t.grid = s.grid ∧
      ∀ i : Point, t.v[d].getLsbD i = decide ((s.grid[i]).code.toNat = k)) ∧
    (3 < k → Raises (.gmask d k) 1#4 s)

/-- R247, R281: GAPPLY moves the contents of cell i to cell g[i]; an IMM that is not 1, 2 or 3 raises UnknownGenerator (4). -/
def Obligations.GapplyMovesTheCells : Prop :=
  ∀ (s : State) (n : Nat),
    (1 ≤ n → n ≤ 3 → ∃ g t, gen n = some g ∧ exec (.gapply n) s = .next t ∧ Completed 0x36#8 0#4 s t ∧
      t.v = s.v ∧ t.p = s.p ∧ t.sres = s.sres ∧ ∀ i : Point, t.grid[g[i].toNat]? = some s.grid[i]) ∧
    (n = 0 ∨ 4 ≤ n → Raises (.gapply n) 4#4 s)

/-- R287, R247: the declared orders: three GAPPLY g1, two GAPPLY g2 or two GAPPLY g3 restore every grid; fewer do not restore
some grid. -/
def Obligations.GeneratorOrders : Prop :=
  (∀ s : State, ∃ t u w, exec (.gapply 1) s = .next t ∧ exec (.gapply 1) t = .next u ∧ exec (.gapply 1) u = .next w ∧
    w.grid = s.grid) ∧
  (∀ (s : State) (n : Nat), n = 2 ∨ n = 3 → ∃ t u, exec (.gapply n) s = .next t ∧ exec (.gapply n) t = .next u ∧
    u.grid = s.grid) ∧
  (∃ s t u : State, exec (.gapply 1) s = .next t ∧ exec (.gapply 1) t = .next u ∧ t.grid ≠ s.grid ∧ u.grid ≠ s.grid) ∧
  (∀ n : Nat, n = 2 ∨ n = 3 → ∃ s t : State, exec (.gapply n) s = .next t ∧ t.grid ≠ s.grid)

/-- R248, R281, R284: GPERM with a register that is a bijection moves the contents of cell i to cell P[A][i]; with any other table
it raises InvalidPattern (1). -/
def Obligations.GpermMovesTheCells : Prop :=
  ∀ (s : State) (a : PReg),
    (IsBijection s.p[a] → ∃ t, exec (.gperm a) s = .next t ∧ Completed 0x37#8 0#4 s t ∧
      t.v = s.v ∧ t.p = s.p ∧ t.sres = s.sres ∧ ∀ i : Point, t.grid[(s.p[a])[i].toNat]? = some s.grid[i]) ∧
    (¬ IsBijection s.p[a] → Raises (.gperm a) 1#4 s)

/-! ## Group commands (44_group.md) -/

/-- R290, R286, R291: PGEN loads g1 (the brick cycle), g2 (the conjugating couple swap) or g3 (an octad involution) as R286
describes them; any other number raises UnknownGenerator (4); PID loads the identity. -/
def Obligations.PgenAndPid : Prop :=
  ∀ (s : State) (d : PReg),
    (∃ t, exec (.pgen d 1) s = .next t ∧ Completed 0x40#8 0#4 s t ∧ t.v = s.v ∧ OtherP d s t ∧ t.sres = s.sres ∧
      t.grid = s.grid ∧ ∀ i : Point, ((t.p[d])[i]).toNat = 6 * (i.val / 6) + (i.val % 6 + 2) % 6) ∧
    (∃ t, exec (.pgen d 2) s = .next t ∧ Completed 0x40#8 0#4 s t ∧ t.v = s.v ∧ OtherP d s t ∧ t.sres = s.sres ∧
      t.grid = s.grid ∧
      ∀ i : Point, ((t.p[d])[i]).toNat = 6 * swapBy [(2, 3)] (i.val / 6) + swapBy [(0, 1)] (i.val % 6)) ∧
    (∃ t, exec (.pgen d 3) s = .next t ∧ Completed 0x40#8 0#4 s t ∧ t.v = s.v ∧ OtherP d s t ∧ t.sres = s.sres ∧
      t.grid = s.grid ∧ ∀ i : Point, ((t.p[d])[i]).toNat =
        swapBy [(5, 6), (7, 10), (8, 16), (9, 22), (12, 18), (13, 21), (14, 19), (15, 20)] i.val) ∧
    (∀ n : Nat, n ≠ 1 → n ≠ 2 → n ≠ 3 → Raises (.pgen d n) 4#4 s) ∧
    (∃ t, exec (.pid d) s = .next t ∧ Completed 0x41#8 0#4 s t ∧ t.v = s.v ∧ OtherP d s t ∧ t.sres = s.sres ∧
      t.grid = s.grid ∧ ∀ i : Point, ((t.p[d])[i]).toNat = i.val)

/-- R292, R282, R284: PCOMP of two bijections writes `b[a[i]]` (both read before the write, so D may be A or B); an ill-formed
operand raises InvalidPattern (1). -/
def Obligations.PcompComposes : Prop :=
  ∀ (s : State) (d a b : PReg),
    (IsBijection s.p[a] → IsBijection s.p[b] → ∃ t, exec (.pcomp d a b) s = .next t ∧ Completed 0x42#8 0#4 s t ∧
      t.v = s.v ∧ OtherP d s t ∧ t.sres = s.sres ∧ t.grid = s.grid ∧ IsBijection t.p[d] ∧
      ∀ i : Point, (s.p[b])[(s.p[a])[i].toNat]? = some (t.p[d])[i]) ∧
    (¬ IsBijection s.p[a] ∨ ¬ IsBijection s.p[b] → Raises (.pcomp d a b) 1#4 s)

/-- R293, R283, R284: PINV of a bijection writes the table r with r[a[i]] = i; an ill-formed operand raises InvalidPattern (1). -/
def Obligations.PinvInverts : Prop :=
  ∀ (s : State) (d a : PReg),
    (IsBijection s.p[a] → ∃ t, exec (.pinv d a) s = .next t ∧ Completed 0x43#8 0#4 s t ∧
      t.v = s.v ∧ OtherP d s t ∧ t.sres = s.sres ∧ t.grid = s.grid ∧ IsBijection t.p[d] ∧
      ∀ i : Point, (t.p[d])[(s.p[a])[i].toNat]? = some (BitVec.ofNat 5 i.val)) ∧
    (¬ IsBijection s.p[a] → Raises (.pinv d a) 1#4 s)

/-- R283: composing with the inverse gives the identity, on either side. -/
def Obligations.InverseComposesToTheIdentity : Prop :=
  ∀ (s : State) (d a e : PReg), IsBijection s.p[a] → d ≠ a →
    ∃ t u w, exec (.pinv d a) s = .next t ∧ exec (.pcomp e a d) t = .next u ∧ exec (.pcomp e d a) t = .next w ∧
      (∀ i : Point, ((u.p[e])[i]).toNat = i.val) ∧ ∀ i : Point, ((w.p[e])[i]).toNat = i.val

/-- R294, R280, R284: PAPV with a bijection moves point i to point p[i] and keeps the weight; an ill-formed register raises
InvalidPattern (1). -/
def Obligations.PapvMovesThePoints : Prop :=
  ∀ (s : State) (d : VReg) (a : PReg) (b : VReg),
    (IsBijection s.p[a] → ∃ t, exec (.papv d a b) s = .next t ∧ Completed 0x44#8 0#4 s t ∧
      OtherV d s t ∧ t.p = s.p ∧ t.sres = s.sres ∧ t.grid = s.grid ∧
      (∀ i : Point, t.v[d].getLsbD ((s.p[a])[i].toNat) = s.v[b].getLsbD i) ∧ popcount t.v[d] = popcount s.v[b]) ∧
    (¬ IsBijection s.p[a] → Raises (.papv d a b) 1#4 s)

/-- R295, R285: PTEST's bit 0 says the table is a bijection, bit 1 that it also maps every codeword to a codeword; it never
raises. -/
def Obligations.PtestTestsThePermutation : Prop :=
  ∀ (s : State) (a : PReg), ∃ t, exec (.ptest a) s = .next t ∧ Completed 0x45#8 0#4 s t ∧
    t.v = s.v ∧ t.p = s.p ∧ t.grid = s.grid ∧
    (t.sres.getLsbD 0 = true ↔ IsBijection s.p[a]) ∧
    (t.sres.getLsbD 1 = true ↔ IsBijection s.p[a] ∧ ∀ c, InCode c → InCode (applyV s.p[a] c)) ∧
    t.sres.extractLsb' 2 30 = 0#30

/-- R287 'every such word is an element of M24' (the source's 'core correctness property to test'): the tables that
are automorphisms by R285's is_aut, which is PTEST's bit 1 (R295; PtestTestsThePermutation), are closed under PCOMP and
PINV, and the generators are among them. -/
def Obligations.AutomorphismsAreClosed : Prop :=
  (∀ n g, gen n = some g → isAut g = true) ∧
  (∀ (s : State) (d a b : PReg), isAut s.p[a] = true → isAut s.p[b] = true →
    ∃ t u, exec (.pcomp d a b) s = .next t ∧ isAut t.p[d] = true ∧ exec (.pinv d a) s = .next u ∧ isAut u.p[d] = true)
end

