-- ==== Sys2Proof/Laws/State.lean ====
section
/-! SUPPORT. One lemma per field per named update of State, true by rfl, so that no later proof unfolds a record update. -/

namespace Sys2Proof.Machine

/-! `State.setV` -/

@[simp] theorem setV_v (s : State) (i : Fin 8) (x : Vec) : (s.setV i x).v = s.v.set i x := rfl
@[simp] theorem setV_p (s : State) (i : Fin 8) (x : Vec) : (s.setV i x).p = s.p := rfl
@[simp] theorem setV_sres (s : State) (i : Fin 8) (x : Vec) : (s.setV i x).sres = s.sres := rfl
@[simp] theorem setV_grid (s : State) (i : Fin 8) (x : Vec) : (s.setV i x).grid = s.grid := rfl
@[simp] theorem setV_ie (s : State) (i : Fin 8) (x : Vec) : (s.setV i x).ie = s.ie := rfl
@[simp] theorem setV_done (s : State) (i : Fin 8) (x : Vec) : (s.setV i x).done = s.done := rfl
@[simp] theorem setV_ovr (s : State) (i : Fin 8) (x : Vec) : (s.setV i x).ovr = s.ovr := rfl
@[simp] theorem setV_err (s : State) (i : Fin 8) (x : Vec) : (s.setV i x).err = s.err := rfl
@[simp] theorem setV_errCode (s : State) (i : Fin 8) (x : Vec) : (s.setV i x).errCode = s.errCode := rfl
@[simp] theorem setV_lastOp (s : State) (i : Fin 8) (x : Vec) : (s.setV i x).lastOp = s.lastOp := rfl
@[simp] theorem setV_pend (s : State) (i : Fin 8) (x : Vec) : (s.setV i x).pend = s.pend := rfl
@[simp] theorem setV_prog (s : State) (i : Fin 8) (x : Vec) : (s.setV i x).prog = s.prog := rfl
@[simp] theorem setV_pos (s : State) (i : Fin 8) (x : Vec) : (s.setV i x).pos = s.pos := rfl
@[simp] theorem setV_vars (s : State) (i : Fin 8) (x : Vec) : (s.setV i x).vars = s.vars := rfl
@[simp] theorem setV_issued (s : State) (i : Fin 8) (x : Vec) : (s.setV i x).issued = s.issued := rfl

/-! `State.setP` -/

@[simp] theorem setP_v (s : State) (i : Fin 4) (q : Perm) : (s.setP i q).v = s.v := rfl
@[simp] theorem setP_p (s : State) (i : Fin 4) (q : Perm) : (s.setP i q).p = s.p.set i q := rfl
@[simp] theorem setP_sres (s : State) (i : Fin 4) (q : Perm) : (s.setP i q).sres = s.sres := rfl
@[simp] theorem setP_grid (s : State) (i : Fin 4) (q : Perm) : (s.setP i q).grid = s.grid := rfl
@[simp] theorem setP_ie (s : State) (i : Fin 4) (q : Perm) : (s.setP i q).ie = s.ie := rfl
@[simp] theorem setP_done (s : State) (i : Fin 4) (q : Perm) : (s.setP i q).done = s.done := rfl
@[simp] theorem setP_ovr (s : State) (i : Fin 4) (q : Perm) : (s.setP i q).ovr = s.ovr := rfl
@[simp] theorem setP_err (s : State) (i : Fin 4) (q : Perm) : (s.setP i q).err = s.err := rfl
@[simp] theorem setP_errCode (s : State) (i : Fin 4) (q : Perm) : (s.setP i q).errCode = s.errCode := rfl
@[simp] theorem setP_lastOp (s : State) (i : Fin 4) (q : Perm) : (s.setP i q).lastOp = s.lastOp := rfl
@[simp] theorem setP_pend (s : State) (i : Fin 4) (q : Perm) : (s.setP i q).pend = s.pend := rfl
@[simp] theorem setP_prog (s : State) (i : Fin 4) (q : Perm) : (s.setP i q).prog = s.prog := rfl
@[simp] theorem setP_pos (s : State) (i : Fin 4) (q : Perm) : (s.setP i q).pos = s.pos := rfl
@[simp] theorem setP_vars (s : State) (i : Fin 4) (q : Perm) : (s.setP i q).vars = s.vars := rfl
@[simp] theorem setP_issued (s : State) (i : Fin 4) (q : Perm) : (s.setP i q).issued = s.issued := rfl

/-! `State.setSres` -/

@[simp] theorem setSres_v (s : State) (x : Word) : (s.setSres x).v = s.v := rfl
@[simp] theorem setSres_p (s : State) (x : Word) : (s.setSres x).p = s.p := rfl
@[simp] theorem setSres_sres (s : State) (x : Word) : (s.setSres x).sres = x := rfl
@[simp] theorem setSres_grid (s : State) (x : Word) : (s.setSres x).grid = s.grid := rfl
@[simp] theorem setSres_ie (s : State) (x : Word) : (s.setSres x).ie = s.ie := rfl
@[simp] theorem setSres_done (s : State) (x : Word) : (s.setSres x).done = s.done := rfl
@[simp] theorem setSres_ovr (s : State) (x : Word) : (s.setSres x).ovr = s.ovr := rfl
@[simp] theorem setSres_err (s : State) (x : Word) : (s.setSres x).err = s.err := rfl
@[simp] theorem setSres_errCode (s : State) (x : Word) : (s.setSres x).errCode = s.errCode := rfl
@[simp] theorem setSres_lastOp (s : State) (x : Word) : (s.setSres x).lastOp = s.lastOp := rfl
@[simp] theorem setSres_pend (s : State) (x : Word) : (s.setSres x).pend = s.pend := rfl
@[simp] theorem setSres_prog (s : State) (x : Word) : (s.setSres x).prog = s.prog := rfl
@[simp] theorem setSres_pos (s : State) (x : Word) : (s.setSres x).pos = s.pos := rfl
@[simp] theorem setSres_vars (s : State) (x : Word) : (s.setSres x).vars = s.vars := rfl
@[simp] theorem setSres_issued (s : State) (x : Word) : (s.setSres x).issued = s.issued := rfl

/-! `State.setGrid` -/

@[simp] theorem setGrid_v (s : State) (g : Vector Cell 24) : (s.setGrid g).v = s.v := rfl
@[simp] theorem setGrid_p (s : State) (g : Vector Cell 24) : (s.setGrid g).p = s.p := rfl
@[simp] theorem setGrid_sres (s : State) (g : Vector Cell 24) : (s.setGrid g).sres = s.sres := rfl
@[simp] theorem setGrid_grid (s : State) (g : Vector Cell 24) : (s.setGrid g).grid = g := rfl
@[simp] theorem setGrid_ie (s : State) (g : Vector Cell 24) : (s.setGrid g).ie = s.ie := rfl
@[simp] theorem setGrid_done (s : State) (g : Vector Cell 24) : (s.setGrid g).done = s.done := rfl
@[simp] theorem setGrid_ovr (s : State) (g : Vector Cell 24) : (s.setGrid g).ovr = s.ovr := rfl
@[simp] theorem setGrid_err (s : State) (g : Vector Cell 24) : (s.setGrid g).err = s.err := rfl
@[simp] theorem setGrid_errCode (s : State) (g : Vector Cell 24) : (s.setGrid g).errCode = s.errCode := rfl
@[simp] theorem setGrid_lastOp (s : State) (g : Vector Cell 24) : (s.setGrid g).lastOp = s.lastOp := rfl
@[simp] theorem setGrid_pend (s : State) (g : Vector Cell 24) : (s.setGrid g).pend = s.pend := rfl
@[simp] theorem setGrid_prog (s : State) (g : Vector Cell 24) : (s.setGrid g).prog = s.prog := rfl
@[simp] theorem setGrid_pos (s : State) (g : Vector Cell 24) : (s.setGrid g).pos = s.pos := rfl
@[simp] theorem setGrid_vars (s : State) (g : Vector Cell 24) : (s.setGrid g).vars = s.vars := rfl
@[simp] theorem setGrid_issued (s : State) (g : Vector Cell 24) : (s.setGrid g).issued = s.issued := rfl

/-! `State.finish` -/

@[simp] theorem finish_v (s : State) (op : Byte) (code : BitVec 4) : (s.finish op code).v = s.v := rfl
@[simp] theorem finish_p (s : State) (op : Byte) (code : BitVec 4) : (s.finish op code).p = s.p := rfl
@[simp] theorem finish_sres (s : State) (op : Byte) (code : BitVec 4) : (s.finish op code).sres = s.sres := rfl
@[simp] theorem finish_grid (s : State) (op : Byte) (code : BitVec 4) : (s.finish op code).grid = s.grid := rfl
@[simp] theorem finish_ie (s : State) (op : Byte) (code : BitVec 4) : (s.finish op code).ie = s.ie := rfl
@[simp] theorem finish_done (s : State) (op : Byte) (code : BitVec 4) : (s.finish op code).done = true := rfl
@[simp] theorem finish_ovr (s : State) (op : Byte) (code : BitVec 4) : (s.finish op code).ovr = s.ovr := rfl
@[simp] theorem finish_err (s : State) (op : Byte) (code : BitVec 4) : (s.finish op code).err = decide (code ≠ 0#4) := rfl
@[simp] theorem finish_errCode (s : State) (op : Byte) (code : BitVec 4) : (s.finish op code).errCode = code := rfl
@[simp] theorem finish_lastOp (s : State) (op : Byte) (code : BitVec 4) : (s.finish op code).lastOp = op := rfl
@[simp] theorem finish_pend (s : State) (op : Byte) (code : BitVec 4) : (s.finish op code).pend = none := rfl
@[simp] theorem finish_prog (s : State) (op : Byte) (code : BitVec 4) : (s.finish op code).prog = s.prog := rfl
@[simp] theorem finish_pos (s : State) (op : Byte) (code : BitVec 4) : (s.finish op code).pos = s.pos := rfl
@[simp] theorem finish_vars (s : State) (op : Byte) (code : BitVec 4) : (s.finish op code).vars = s.vars := rfl
@[simp] theorem finish_issued (s : State) (op : Byte) (code : BitVec 4) : (s.finish op code).issued = s.issued := rfl

/-! `State.block` -/

@[simp] theorem block_v (s : State) : s.block.v = s.v := rfl
@[simp] theorem block_p (s : State) : s.block.p = s.p := rfl
@[simp] theorem block_sres (s : State) : s.block.sres = s.sres := rfl
@[simp] theorem block_grid (s : State) : s.block.grid = s.grid := rfl
@[simp] theorem block_ie (s : State) : s.block.ie = s.ie := rfl
@[simp] theorem block_done (s : State) : s.block.done = s.done := rfl
@[simp] theorem block_ovr (s : State) : s.block.ovr = true := rfl
@[simp] theorem block_err (s : State) : s.block.err = s.err := rfl
@[simp] theorem block_errCode (s : State) : s.block.errCode = s.errCode := rfl
@[simp] theorem block_lastOp (s : State) : s.block.lastOp = s.lastOp := rfl
@[simp] theorem block_pend (s : State) : s.block.pend = s.pend := rfl
@[simp] theorem block_prog (s : State) : s.block.prog = s.prog := rfl
@[simp] theorem block_pos (s : State) : s.block.pos = s.pos := rfl
@[simp] theorem block_vars (s : State) : s.block.vars = s.vars := rfl
@[simp] theorem block_issued (s : State) : s.block.issued = s.issued := rfl

/-! `State.accept` -/

@[simp] theorem accept_v (s : State) (w : Word) : (s.accept w).v = s.v := rfl
@[simp] theorem accept_p (s : State) (w : Word) : (s.accept w).p = s.p := rfl
@[simp] theorem accept_sres (s : State) (w : Word) : (s.accept w).sres = s.sres := rfl
@[simp] theorem accept_grid (s : State) (w : Word) : (s.accept w).grid = s.grid := rfl
@[simp] theorem accept_ie (s : State) (w : Word) : (s.accept w).ie = s.ie := rfl
@[simp] theorem accept_done (s : State) (w : Word) : (s.accept w).done = s.done := rfl
@[simp] theorem accept_ovr (s : State) (w : Word) : (s.accept w).ovr = s.ovr := rfl
@[simp] theorem accept_err (s : State) (w : Word) : (s.accept w).err = s.err := rfl
@[simp] theorem accept_errCode (s : State) (w : Word) : (s.accept w).errCode = s.errCode := rfl
@[simp] theorem accept_lastOp (s : State) (w : Word) : (s.accept w).lastOp = s.lastOp := rfl
@[simp] theorem accept_pend (s : State) (w : Word) : (s.accept w).pend = some { word := w, delay := Config.latency s.issued } := rfl
@[simp] theorem accept_prog (s : State) (w : Word) : (s.accept w).prog = s.prog := rfl
@[simp] theorem accept_pos (s : State) (w : Word) : (s.accept w).pos = s.pos := rfl
@[simp] theorem accept_vars (s : State) (w : Word) : (s.accept w).vars = s.vars := rfl
@[simp] theorem accept_issued (s : State) (w : Word) : (s.accept w).issued = s.issued + 1 := rfl

/-! `State.writeStatus` -/

@[simp] theorem writeStatus_v (s : State) (x : Word) : (s.writeStatus x).v = s.v := rfl
@[simp] theorem writeStatus_p (s : State) (x : Word) : (s.writeStatus x).p = s.p := rfl
@[simp] theorem writeStatus_sres (s : State) (x : Word) : (s.writeStatus x).sres = s.sres := rfl
@[simp] theorem writeStatus_grid (s : State) (x : Word) : (s.writeStatus x).grid = s.grid := rfl
@[simp] theorem writeStatus_ie (s : State) (x : Word) : (s.writeStatus x).ie = s.ie := rfl
@[simp] theorem writeStatus_done (s : State) (x : Word) : (s.writeStatus x).done = (s.done && !x.getLsbD 1) := rfl
@[simp] theorem writeStatus_ovr (s : State) (x : Word) : (s.writeStatus x).ovr = (s.ovr && !x.getLsbD 2) := rfl
@[simp] theorem writeStatus_err (s : State) (x : Word) : (s.writeStatus x).err = s.err := rfl
@[simp] theorem writeStatus_errCode (s : State) (x : Word) : (s.writeStatus x).errCode = s.errCode := rfl
@[simp] theorem writeStatus_lastOp (s : State) (x : Word) : (s.writeStatus x).lastOp = s.lastOp := rfl
@[simp] theorem writeStatus_pend (s : State) (x : Word) : (s.writeStatus x).pend = s.pend := rfl
@[simp] theorem writeStatus_prog (s : State) (x : Word) : (s.writeStatus x).prog = s.prog := rfl
@[simp] theorem writeStatus_pos (s : State) (x : Word) : (s.writeStatus x).pos = s.pos := rfl
@[simp] theorem writeStatus_vars (s : State) (x : Word) : (s.writeStatus x).vars = s.vars := rfl
@[simp] theorem writeStatus_issued (s : State) (x : Word) : (s.writeStatus x).issued = s.issued := rfl

/-! `State.resetCore` -/

@[simp] theorem resetCore_v (s : State) : s.resetCore.v = State.reset.v := rfl
@[simp] theorem resetCore_p (s : State) : s.resetCore.p = State.reset.p := rfl
@[simp] theorem resetCore_sres (s : State) : s.resetCore.sres = State.reset.sres := rfl
@[simp] theorem resetCore_grid (s : State) : s.resetCore.grid = State.reset.grid := rfl
@[simp] theorem resetCore_ie (s : State) : s.resetCore.ie = State.reset.ie := rfl
@[simp] theorem resetCore_done (s : State) : s.resetCore.done = State.reset.done := rfl
@[simp] theorem resetCore_ovr (s : State) : s.resetCore.ovr = State.reset.ovr := rfl
@[simp] theorem resetCore_err (s : State) : s.resetCore.err = State.reset.err := rfl
@[simp] theorem resetCore_errCode (s : State) : s.resetCore.errCode = State.reset.errCode := rfl
@[simp] theorem resetCore_lastOp (s : State) : s.resetCore.lastOp = State.reset.lastOp := rfl
@[simp] theorem resetCore_pend (s : State) : s.resetCore.pend = State.reset.pend := rfl
@[simp] theorem resetCore_prog (s : State) : s.resetCore.prog = s.prog := rfl
@[simp] theorem resetCore_pos (s : State) : s.resetCore.pos = s.pos := rfl
@[simp] theorem resetCore_vars (s : State) : s.resetCore.vars = s.vars := rfl
@[simp] theorem resetCore_issued (s : State) : s.resetCore.issued = s.issued := rfl

/-! `State.keepRead` -/

@[simp] theorem keepRead_v (s : State) (reg : Offset) (x : Word) : (s.keepRead reg x).v = s.v := rfl
@[simp] theorem keepRead_p (s : State) (reg : Offset) (x : Word) : (s.keepRead reg x).p = s.p := rfl
@[simp] theorem keepRead_sres (s : State) (reg : Offset) (x : Word) : (s.keepRead reg x).sres = s.sres := rfl
@[simp] theorem keepRead_grid (s : State) (reg : Offset) (x : Word) : (s.keepRead reg x).grid = s.grid := rfl
@[simp] theorem keepRead_ie (s : State) (reg : Offset) (x : Word) : (s.keepRead reg x).ie = s.ie := rfl
@[simp] theorem keepRead_done (s : State) (reg : Offset) (x : Word) : (s.keepRead reg x).done = s.done := rfl
@[simp] theorem keepRead_ovr (s : State) (reg : Offset) (x : Word) : (s.keepRead reg x).ovr = s.ovr := rfl
@[simp] theorem keepRead_err (s : State) (reg : Offset) (x : Word) : (s.keepRead reg x).err = s.err := rfl
@[simp] theorem keepRead_errCode (s : State) (reg : Offset) (x : Word) : (s.keepRead reg x).errCode = s.errCode := rfl
@[simp] theorem keepRead_lastOp (s : State) (reg : Offset) (x : Word) : (s.keepRead reg x).lastOp = s.lastOp := rfl
@[simp] theorem keepRead_pend (s : State) (reg : Offset) (x : Word) : (s.keepRead reg x).pend = s.pend := rfl
@[simp] theorem keepRead_prog (s : State) (reg : Offset) (x : Word) : (s.keepRead reg x).prog = s.prog := rfl
@[simp] theorem keepRead_pos (s : State) (reg : Offset) (x : Word) : (s.keepRead reg x).pos = s.pos := rfl
@[simp] theorem keepRead_vars (s : State) (reg : Offset) (x : Word) : (s.keepRead reg x).vars = varsSet reg.toNat x s.vars := rfl
@[simp] theorem keepRead_issued (s : State) (reg : Offset) (x : Word) : (s.keepRead reg x).issued = s.issued := rfl

/-! `State.advance` -/

@[simp] theorem advance_v (s : State) : s.advance.v = s.v := rfl
@[simp] theorem advance_p (s : State) : s.advance.p = s.p := rfl
@[simp] theorem advance_sres (s : State) : s.advance.sres = s.sres := rfl
@[simp] theorem advance_grid (s : State) : s.advance.grid = s.grid := rfl
@[simp] theorem advance_ie (s : State) : s.advance.ie = s.ie := rfl
@[simp] theorem advance_done (s : State) : s.advance.done = s.done := rfl
@[simp] theorem advance_ovr (s : State) : s.advance.ovr = s.ovr := rfl
@[simp] theorem advance_err (s : State) : s.advance.err = s.err := rfl
@[simp] theorem advance_errCode (s : State) : s.advance.errCode = s.errCode := rfl
@[simp] theorem advance_lastOp (s : State) : s.advance.lastOp = s.lastOp := rfl
@[simp] theorem advance_pend (s : State) : s.advance.pend = s.pend := rfl
@[simp] theorem advance_prog (s : State) : s.advance.prog = s.prog := rfl
@[simp] theorem advance_pos (s : State) : s.advance.pos = s.pos + 1 := rfl
@[simp] theorem advance_vars (s : State) : s.advance.vars = s.vars := rfl
@[simp] theorem advance_issued (s : State) : s.advance.issued = s.issued := rfl

/-! `State.jump` -/

@[simp] theorem jump_v (s : State) (target : Nat) : (s.jump target).v = s.v := rfl
@[simp] theorem jump_p (s : State) (target : Nat) : (s.jump target).p = s.p := rfl
@[simp] theorem jump_sres (s : State) (target : Nat) : (s.jump target).sres = s.sres := rfl
@[simp] theorem jump_grid (s : State) (target : Nat) : (s.jump target).grid = s.grid := rfl
@[simp] theorem jump_ie (s : State) (target : Nat) : (s.jump target).ie = s.ie := rfl
@[simp] theorem jump_done (s : State) (target : Nat) : (s.jump target).done = s.done := rfl
@[simp] theorem jump_ovr (s : State) (target : Nat) : (s.jump target).ovr = s.ovr := rfl
@[simp] theorem jump_err (s : State) (target : Nat) : (s.jump target).err = s.err := rfl
@[simp] theorem jump_errCode (s : State) (target : Nat) : (s.jump target).errCode = s.errCode := rfl
@[simp] theorem jump_lastOp (s : State) (target : Nat) : (s.jump target).lastOp = s.lastOp := rfl
@[simp] theorem jump_pend (s : State) (target : Nat) : (s.jump target).pend = s.pend := rfl
@[simp] theorem jump_prog (s : State) (target : Nat) : (s.jump target).prog = s.prog := rfl
@[simp] theorem jump_pos (s : State) (target : Nat) : (s.jump target).pos = target := rfl
@[simp] theorem jump_vars (s : State) (target : Nat) : (s.jump target).vars = s.vars := rfl
@[simp] theorem jump_issued (s : State) (target : Nat) : (s.jump target).issued = s.issued := rfl

/-! `State.tick` -/

@[simp] theorem tick_v (s : State) : s.tick.v = s.v := rfl
@[simp] theorem tick_p (s : State) : s.tick.p = s.p := rfl
@[simp] theorem tick_sres (s : State) : s.tick.sres = s.sres := rfl
@[simp] theorem tick_grid (s : State) : s.tick.grid = s.grid := rfl
@[simp] theorem tick_ie (s : State) : s.tick.ie = s.ie := rfl
@[simp] theorem tick_done (s : State) : s.tick.done = s.done := rfl
@[simp] theorem tick_ovr (s : State) : s.tick.ovr = s.ovr := rfl
@[simp] theorem tick_err (s : State) : s.tick.err = s.err := rfl
@[simp] theorem tick_errCode (s : State) : s.tick.errCode = s.errCode := rfl
@[simp] theorem tick_lastOp (s : State) : s.tick.lastOp = s.lastOp := rfl
@[simp] theorem tick_pend (s : State) : s.tick.pend = s.pend.map fun q => { q with delay := q.delay - 1 } := rfl
@[simp] theorem tick_prog (s : State) : s.tick.prog = s.prog := rfl
@[simp] theorem tick_pos (s : State) : s.tick.pos = s.pos := rfl
@[simp] theorem tick_vars (s : State) : s.tick.vars = s.vars := rfl
@[simp] theorem tick_issued (s : State) : s.tick.issued = s.issued := rfl

/-! Reading the registers and flags through the updates. -/

@[simp] theorem raise_eq (s : State) (op : Byte) (e : CmdError) : s.raise op e = s.finish op e.code := rfl
@[simp] theorem finish_busy (s : State) (op : Byte) (code : BitVec 4) : (s.finish op code).busy = false := rfl
@[simp] theorem accept_busy (s : State) (w : Word) : (s.accept w).busy = true := rfl
@[simp] theorem resetCore_busy (s : State) : s.resetCore.busy = false := rfl
@[simp] theorem busy_eq (s : State) : s.busy = s.pend.isSome := rfl
@[simp] theorem tick_busy (s : State) : s.tick.busy = s.busy := by simp
@[simp] theorem getV_eq (s : State) (i : Fin 8) : s.getV i = s.v[i] := rfl
@[simp] theorem getP_eq (s : State) (i : Fin 4) : s.getP i = s.p[i] := rfl
@[simp] theorem irq_eq (s : State) : s.irq = (s.ie && s.done) := rfl

/-! Where the model puts an instruction. -/

@[simp] theorem withFetchWord_pend (s : State) (n w : Nat) :
    (s.withFetchWord n w).pend = some { word := BitVec.ofNat 32 (w % 2 ^ n), delay := 0 } := rfl

end Sys2Proof.Machine
end

