-- ==== Sys2Proof/Laws/Ops.lean ====
section
/-! SUPPORT. What the shared operations of Machine/Ops.lean do: bits, weights, and the completion of a command. -/

namespace Sys2Proof.Machine

theorem testBit_ofBitsNat (f : Nat → Bool) (n i : Nat) : (ofBitsNat f n).testBit i = (decide (i < n) && f i) := by
  have hlt : ∀ m, ofBitsNat f m < 2 ^ m := by
    intro m
    induction m with
    | zero => simp [ofBitsNat]
    | succ m ih => rw [ofBitsNat, Nat.pow_succ]; split <;> omega
  induction n with
  | zero => simp [ofBitsNat]
  | succ n ih =>
    rw [ofBitsNat]
    cases hf : f n
    · rw [if_neg (by simp), Nat.add_zero, ih]
      by_cases h : i = n
      · subst h; simp [hf]
      · simp [show (i < n + 1) = (i < n) from propext (by omega)]
    · rw [if_pos rfl, Nat.add_comm]
      by_cases h : i = n
      · subst h; simp [Nat.testBit_two_pow_add_eq, Nat.testBit_lt_two_pow (hlt i), hf]
      · rcases Nat.lt_or_gt_of_ne h with h' | h'
        · rw [Nat.testBit_two_pow_add_gt h', ih]; simp [h', show i < n + 1 by omega]
        · rw [Nat.testBit_lt_two_pow]
          · simp [show ¬ i < n + 1 by omega]
          · calc 2 ^ n + ofBitsNat f n < 2 ^ n + 2 ^ n := by have := hlt n; omega
              _ = 2 ^ (n + 1) := by rw [Nat.pow_succ]; omega
              _ ≤ 2 ^ i := Nat.pow_le_pow_right (by omega) h'

/-- Bit i of `ofBits n f` is f i. -/
@[simp] theorem getLsbD_ofBits (n : Nat) (f : Nat → Bool) (i : Nat) :
    (ofBits n f).getLsbD i = (decide (i < n) && f i) := by
  simp only [ofBits, BitVec.getLsbD_ofNat, testBit_ofBitsNat]
  by_cases h : i < n <;> simp [h]

/-- Bit j of δ_i (R10). -/
@[simp] theorem getLsbD_delta (i j : Nat) : (delta i).getLsbD j = decide (i = j ∧ j < 24) := by
  simp only [delta, BitVec.getLsbD_shiftLeft, BitVec.getLsbD_one]
  by_cases h : i = j <;> by_cases h' : j < 24 <;> (simp [h, h']; try omega)

theorem bitCount_le (x n : Nat) : bitCount x n ≤ n := by
  induction n generalizing x with
  | zero => simp [bitCount]
  | succ n ih => have := ih (x / 2); simp only [bitCount]; omega

/-- A weight is at most the width (R18). -/
theorem popcount_le {n : Nat} (v : BitVec n) : popcount v ≤ n := bitCount_le _ _

/-- The parity of a weight is linear: the XOR of two values has the sum of their parities. -/
theorem bitCount_xor_mod_two (x y n : Nat) : bitCount (x ^^^ y) n % 2 = (bitCount x n + bitCount y n) % 2 := by
  induction n generalizing x y with
  | zero => simp [bitCount]
  | succ n ih =>
    have h1 : (x ^^^ y) / 2 = x / 2 ^^^ y / 2 := Nat.xor_div_two
    have h2 : (x ^^^ y) % 2 = (x % 2 + y % 2) % 2 := by
      have := Nat.xor_mod_two_eq (n := y) (m := x)
      omega
    have h3 := ih (x / 2) (y / 2)
    simp only [bitCount, h1]
    omega

theorem popcount_xor_mod_two {n : Nat} (x y : BitVec n) :
    popcount (x ^^^ y) % 2 = (popcount x + popcount y) % 2 := by
  simp only [popcount, BitVec.toNat_xor, bitCount_xor_mod_two]

/-- A completion leaves every field that is no command data as R324 says. -/
theorem finish_completed (s : State) (op : Byte) (code : BitVec 4) (u : State)
    (hovr : u.ovr = s.ovr) (hie : u.ie = s.ie) (hprog : u.prog = s.prog) (hpos : u.pos = s.pos)
    (hvars : u.vars = s.vars) (hissued : u.issued = s.issued) : Completed op code s (u.finish op code) :=
  ⟨rfl, rfl, rfl, rfl, rfl, hovr, hie, hprog, hpos, hvars, hissued⟩

/-- A command that raises changes nothing but the completion fields (R322). -/
theorem raise_completed (s : State) (op : Byte) (e : CmdError) :
    Completed op e.code s (s.raise op e) ∧ DataKept s (s.raise op e) :=
  ⟨finish_completed s op e.code s rfl rfl rfl rfl rfl rfl, rfl, rfl, rfl, rfl⟩

/-- Every error code is 1 to 5 (R320). -/
theorem code_range (e : CmdError) : e.code ≠ 0#4 ∧ e.code.toNat ≤ 5 := by cases e <;> decide

/-- All `complete` can answer (R370): the results committed with code 0, or the error's code and nothing else. -/
theorem complete_cases {op : Byte} {r : Except CmdError State} {s t : State} (h : complete op r s = .next t) :
    (∃ u, r = .ok u ∧ t = u.finish op 0#4) ∨ (∃ e, r = .error e ∧ t = s.raise op e) := by
  cases r with
  | ok u => exact .inl ⟨u, rfl, by simpa [complete] using h.symm⟩
  | error e => exact .inr ⟨e, rfl, by simpa [complete] using h.symm⟩

@[simp] theorem complete_ok (op : Byte) (u s : State) : complete op (.ok u) s = .next (u.finish op 0#4) := rfl
@[simp] theorem complete_error (op : Byte) (e : CmdError) (s : State) :
    complete op (.error e) s = .next (s.raise op e) := rfl

end Sys2Proof.Machine
end

