-- ==== Sys2Proof/Laws/Action.lean ====
section
/-! SUPPORT. What a permutation does (44_group.md R280-R284), for a table that is a bijection. -/

namespace Sys2Proof.Machine

/-- The machine's check is the spec's property (R284). -/
theorem validPerm_iff (p : Perm) : validPerm p = true ↔ IsBijection p := by
  simp only [validPerm, IsBijection, Bool.and_eq_true, List.all_eq_true, decide_eq_true_eq]
  refine and_congr ?_ ?_
  · constructor
    · intro h i
      exact h _ (by simp)
    · intro h e he
      obtain ⟨k, hk, rfl⟩ := List.getElem_of_mem he
      exact h ⟨k, by simpa using hk⟩
  · rw [List.nodup_iff_injective_get]
    constructor
    · intro h i j hij
      have := @h ⟨i.val, by simp⟩ ⟨j.val, by simp⟩ (by simpa using hij)
      simpa [Fin.ext_iff] using this
    · intro h a b hab
      have := h ⟨a.val, by simpa using a.isLt⟩ ⟨b.val, by simpa using b.isLt⟩ (by simpa using hab)
      simpa [Fin.ext_iff] using this

/-- Each item moves from place i to place p[i] (R281, R283). -/
theorem moveBy_getElem {α : Type} {p : Perm} (h : IsBijection p) (x : Vector α 24) (i : Point) :
    (moveBy p x)[p[i].toNat]'(h.1 i) = x[i] := by
  have hi : p[i].toNat < 24 := h.1 i
  simp only [moveBy, Vector.getElem_ofFn]
  have hmem : ∃ k, points.find? (fun k => p[k].toNat == p[i].toNat) = some k := by
    rw [← Option.isSome_iff_exists, List.find?_isSome]
    exact ⟨i, List.mem_finRange i, by simp⟩
  obtain ⟨k, hk⟩ := hmem
  have hk' := List.find?_some hk
  simp only [beq_iff_eq] at hk'
  rw [hk, h.2 k i (BitVec.eq_of_toNat_eq hk')]

theorem foldl_or_getLsbD (f : Point → Bool) (g : Point → Nat) (l : List Point) (a : Vec) (j : Nat) :
    (l.foldl (fun acc i => if f i then acc ||| delta (g i) else acc) a).getLsbD j =
      (a.getLsbD j || l.any fun i => f i && decide (g i = j ∧ j < 24)) := by
  induction l generalizing a with
  | nil => simp
  | cons i l ih =>
    rw [List.foldl_cons, ih]
    cases hf : f i <;> simp [hf, Bool.or_assoc]

/-- Bit j of the image: some point of v is sent to j (R280). -/
theorem getLsbD_applyV (p : Perm) (v : Vec) (j : Nat) :
    (applyV p v).getLsbD j = points.any fun i => v.getLsbD i && decide (p[i].toNat = j ∧ j < 24) := by
  have := foldl_or_getLsbD (fun i => v.getLsbD i) (fun i => p[i].toNat) points 0#24 j
  simpa [applyV] using this

/-- `compose(a, b)[i] = b[a[i]]` (R282). -/
theorem compose_getElem {a : Perm} (h : IsBijection a) (b : Perm) (i : Point) :
    (compose a b)[i] = b[a[i].toNat]'(h.1 i) := by
  have hi : a[i.val].toNat < 24 := h.1 i
  simp [compose, List.getD, getElem?_pos b a[i.val].toNat hi]

end Sys2Proof.Machine
end

