-- ==== Sys2Proof/Laws/Bus.lean ====
section
/-! SUPPORT. The register map (20_memory.md R71-R73): where each register stands. -/

namespace Sys2Proof.Machine

/-- Vi stands at its offset (R71). -/
@[simp] theorem regAt_vOffset : ∀ i : Fin 8, regAt (vOffset i) = .v i := by decide

/-- P[i][j] stands at its offset (R72). -/
@[simp] theorem regAt_pOffset : ∀ (i : Fin 4) (j : Fin 24), regAt (pOffset i j) = .p i j := by decide

@[simp] theorem regAt_id : regAt 0x000#12 = .id := by decide
@[simp] theorem regAt_ctrl : regAt 0x004#12 = .ctrl := by decide
@[simp] theorem regAt_status : regAt 0x008#12 = .status := by decide
@[simp] theorem regAt_cmd : regAt 0x00C#12 = .cmd := by decide
@[simp] theorem regAt_sres : regAt 0x010#12 = .sres := by decide
@[simp] theorem regAt_gridLo : regAt 0x014#12 = .gridLo := by decide
@[simp] theorem regAt_gridHi : regAt 0x018#12 = .gridHi := by decide

/-- CTRL stands at 0x004 alone (R71). -/
theorem eq_of_regAt_ctrl {off : Offset} (h : regAt off = .ctrl) : off = 0x004#12 := by
  have key : ∀ n < 32, regAtNat n = .ctrl → n = 4 := by decide
  by_cases hlt : off.toNat < 32
  · exact BitVec.eq_of_toNat_eq (key _ hlt h)
  · have hn : regAtNat off.toNat = .ctrl := h
    simp only [regAtNat, if_neg (show ¬ off.toNat < 0x020 from hlt)] at hn
    split_ifs at hn

/-- What a write to a busy core can leave (R35, R36, R38): everything but CTRL.IE, DONE and OVR. -/
structure PendingKept (s t : State) : Prop where
  data    : DataKept s t
  pend    : t.pend = s.pend
  err     : t.err = s.err
  errCode : t.errCode = s.errCode
  lastOp  : t.lastOp = s.lastOp
  prog    : t.prog = s.prog
  pos     : t.pos = s.pos
  vars    : t.vars = s.vars
  issued  : t.issued = s.issued

/-- A write while BUSY = 1 is a soft reset (R361) or leaves the pending command and all it reads and writes (R38, R41). -/
theorem busWrite_busy {s : State} (h : s.busy = true) (off : Offset) (x : Word) :
    (off = 0x004#12 ∧ x.getLsbD 0 = true ∧ s.busWrite off x = s.resetCore) ∨ PendingKept s (s.busWrite off x) := by
  have same : PendingKept s s := ⟨⟨rfl, rfl, rfl, rfl⟩, rfl, rfl, rfl, rfl, rfl, rfl, rfl, rfl⟩
  have blocked : PendingKept s s.block := ⟨⟨rfl, rfl, rfl, rfl⟩, rfl, rfl, rfl, rfl, rfl, rfl, rfl, rfl⟩
  simp only [State.busWrite]
  cases hr : regAt off with
  | ctrl =>
    cases hx : x.getLsbD 0 with
    | true => exact .inl ⟨eq_of_regAt_ctrl hr, rfl, by simp only [State.writeReg, State.writeCtrl, hx, if_true]⟩
    | false =>
      refine .inr ?_
      simp only [State.writeReg, State.writeCtrl, hx]
      exact ⟨⟨rfl, rfl, rfl, rfl⟩, rfl, rfl, rfl, rfl, rfl, rfl, rfl, rfl⟩
  | status => exact .inr ⟨⟨rfl, rfl, rfl, rfl⟩, rfl, rfl, rfl, rfl, rfl, rfl, rfl, rfl⟩
  | cmd => exact .inr (by simpa only [State.writeReg, h, if_true] using blocked)
  | v i => exact .inr (by simpa only [State.writeReg, h, if_true] using blocked)
  | p i j => exact .inr (by simpa only [State.writeReg, h, if_true] using blocked)
  | id | sres | gridLo | gridHi | unmapped => exact .inr same

end Sys2Proof.Machine
end

