-- ==== Sys2Proof/Laws/Decode.lean ====
section
/-! SUPPORT. The fields of an assembled word, and the decoder read row by row. -/

namespace Sys2Proof

@[simp] theorem opField_assemble (imm : BitVec 12) (b a d : BitVec 4) (op : Byte) :
    opField (assemble imm b a d op) = op := by
  ext i hi
  simp only [opField, assemble, BitVec.getElem_extractLsb', BitVec.getLsbD_append]
  simp [hi]

@[simp] theorem dField_assemble (imm : BitVec 12) (b a d : BitVec 4) (op : Byte) :
    dField (assemble imm b a d op) = d := by
  ext i hi
  simp only [dField, assemble, BitVec.getElem_extractLsb', BitVec.getLsbD_append]
  simp [hi]

@[simp] theorem aField_assemble (imm : BitVec 12) (b a d : BitVec 4) (op : Byte) :
    aField (assemble imm b a d op) = a := by
  ext i hi
  simp only [aField, assemble, BitVec.getElem_extractLsb', BitVec.getLsbD_append]
  simp [hi, show ¬ 12 + i < 8 by omega, show ¬ 12 + i - 8 < 4 by omega, show 12 + i - 8 - 4 = i by omega]

@[simp] theorem bField_assemble (imm : BitVec 12) (b a d : BitVec 4) (op : Byte) :
    bField (assemble imm b a d op) = b := by
  ext i hi
  simp only [bField, assemble, BitVec.getElem_extractLsb', BitVec.getLsbD_append]
  simp [hi, show ¬ 16 + i < 8 by omega, show ¬ 16 + i - 8 < 4 by omega, show ¬ 16 + i - 8 - 4 < 4 by omega,
    show 16 + i - 8 - 4 - 4 = i by omega]

@[simp] theorem immField_assemble (imm : BitVec 12) (b a d : BitVec 4) (op : Byte) :
    immField (assemble imm b a d op) = imm := by
  ext i hi
  simp only [immField, assemble, BitVec.getElem_extractLsb', BitVec.getLsbD_append]
  simp [hi, show ¬ 20 + i < 8 by omega, show ¬ 20 + i - 8 < 4 by omega, show ¬ 20 + i - 8 - 4 < 4 by omega,
    show ¬ 20 + i - 8 - 4 - 4 < 4 by omega, show 20 + i - 8 - 4 - 4 - 4 = i by omega]

/-- Bit i of an assembled word (R110). -/
theorem getLsbD_assemble (imm : BitVec 12) (b a d : BitVec 4) (op : Byte) (i : Nat) :
    (assemble imm b a d op).getLsbD i =
      if i < 8 then op.getLsbD i else if i < 12 then d.getLsbD (i - 8) else if i < 16 then a.getLsbD (i - 12)
      else if i < 20 then b.getLsbD (i - 16) else imm.getLsbD (i - 20) := by
  simp only [assemble, BitVec.getLsbD_append]
  repeat' split
  all_goals first | omega | rfl

/-- A word is its fields laid side by side (R110). -/
theorem assemble_fields (w : Word) : assemble (immField w) (bField w) (aField w) (dField w) (opField w) = w := by
  apply BitVec.eq_of_getLsbD_eq
  intro i hi
  simp only [getLsbD_assemble, opField, dField, aField, bField, immField, BitVec.getLsbD_extractLsb']
  repeat' split
  · simp [*]
  · simp [show i - 8 < 4 by omega, show 8 + (i - 8) = i by omega]
  · simp [show i - 12 < 4 by omega, show 12 + (i - 12) = i by omega]
  · simp [show i - 16 < 4 by omega, show 16 + (i - 16) = i by omega]
  · simp [show i - 20 < 12 by omega, show 20 + (i - 20) = i by omega]

/-- Masking an assembled word masks its fields. -/
theorem assemble_and (i i' : BitVec 12) (b b' a a' d d' : BitVec 4) (o o' : Byte) :
    assemble i b a d o &&& assemble i' b' a' d' o' =
      assemble (i &&& i') (b &&& b') (a &&& a') (d &&& d') (o &&& o') := by
  apply BitVec.eq_of_getLsbD_eq
  intro k _
  simp only [BitVec.getLsbD_and, getLsbD_assemble]
  repeat' split
  all_goals rfl

/-- The word `match` of an opcode has the opcode and nothing else (R112). -/
theorem pattern_eq_assemble (op : Byte) : pattern op = assemble 0 0 0 0 op := by
  apply BitVec.eq_of_getLsbD_eq
  intro i hi
  simp only [pattern, getLsbD_assemble, BitVec.getLsbD_setWidth, hi, decide_true, Bool.true_and]
  split
  · rfl
  · rw [BitVec.getLsbD_of_ge _ _ (by omega)]; simp

/-- A register index comes back from its field. -/
@[simp] theorem vecIndex_regField : ∀ r : VReg, vecIndex (regField r) = r := by decide
@[simp] theorem permIndex_regField : ∀ r : PReg, permIndex (regField r) = r := by decide

/-- A number immediate that fits comes back from its field. -/
@[simp] theorem numField_toNat {n : Nat} (h : n < 4096) : (numField n).toNat = n := by
  simp [numField, Nat.mod_eq_of_lt h]

/-- A vector index field has bit 3 zero, a permutation index field bits 3:2 (R111). -/
theorem regField_and_v : ∀ r : VReg, regField r &&& 0x8#4 = 0#4 := by decide
theorem regField_and_p : ∀ r : PReg, regField r &&& 0xC#4 = 0#4 := by decide

/-- What `legalAs` answers (R115). -/
theorem legalAs_eq_some {f : Format} {w : Word} {i j : Instr} :
    legalAs f w i = some j ↔ w &&& f.mask = pattern (opField w) ∧ i = j := by
  unfold legalAs
  split <;> simp_all

/-- A decoded word's opcode byte is the instruction's (R114). -/
theorem decode_opcode {w : Word} {i : Instr} (h : decode w = some i) : i.opcode = opField w := by
  unfold decode at h
  split at h
  case h_26 => cases h
  all_goals
    obtain ⟨-, rfl⟩ := legalAs_eq_some.mp h
    simp only [Instr.opcode, *]

/-- A decoded word meets its format's mask (R112). -/
theorem decode_mask {w : Word} {i : Instr} (h : decode w = some i) : w &&& i.format.mask = pattern i.opcode := by
  rw [decode_opcode h]
  unfold decode at h
  split at h
  case h_26 => cases h
  all_goals
    obtain ⟨hm, rfl⟩ := legalAs_eq_some.mp h
    exact hm

end Sys2Proof
end

