-- ==== Sys2Proof/Laws/Exec.lean ====
section
/-! SUPPORT. Everything a command can do, said once (00_scope.md R13; 60_exceptions.md R322, R324): it commits data and completes
with code 0, or it raises one error and changes nothing but the completion fields. -/

namespace Sys2Proof.Machine

/-- u has every field of s but V, P, SRES and GRID: all that a command can assign (R322). -/
structure SameControl (s u : State) : Prop where
  ie      : u.ie = s.ie
  done    : u.done = s.done
  ovr     : u.ovr = s.ovr
  err     : u.err = s.err
  errCode : u.errCode = s.errCode
  lastOp  : u.lastOp = s.lastOp
  pend    : u.pend = s.pend
  prog    : u.prog = s.prog
  pos     : u.pos = s.pos
  vars    : u.vars = s.vars
  issued  : u.issued = s.issued

theorem SameControl.refl (s : State) : SameControl s s := ⟨rfl, rfl, rfl, rfl, rfl, rfl, rfl, rfl, rfl, rfl, rfl⟩
theorem SameControl.setV {s u : State} (h : SameControl s u) (d : Fin 8) (x : Vec) : SameControl s (u.setV d x) := ⟨h.1, h.2, h.3, h.4, h.5, h.6, h.7, h.8, h.9, h.10, h.11⟩
theorem SameControl.setP {s u : State} (h : SameControl s u) (d : Fin 4) (q : Perm) : SameControl s (u.setP d q) := ⟨h.1, h.2, h.3, h.4, h.5, h.6, h.7, h.8, h.9, h.10, h.11⟩
theorem SameControl.setSres {s u : State} (h : SameControl s u) (x : Word) : SameControl s (u.setSres x) := ⟨h.1, h.2, h.3, h.4, h.5, h.6, h.7, h.8, h.9, h.10, h.11⟩
theorem SameControl.setGrid {s u : State} (h : SameControl s u) (g : Vector Cell 24) : SameControl s (u.setGrid g) := ⟨h.1, h.2, h.3, h.4, h.5, h.6, h.7, h.8, h.9, h.10, h.11⟩

/-- A completed command leaves the fields that are no data as R324 says. -/
theorem SameControl.completed {s u : State} (h : SameControl s u) (op : Byte) : Completed op 0#4 s (u.finish op 0#4) :=
  finish_completed s op 0#4 u h.ovr h.ie h.prog h.pos h.vars h.issued

/-- What a command commits, when it commits. -/
def CommitsOrRaises (i : Instr) (s : State) : Prop :=
  (∃ u, SameControl s u ∧ exec i s = .next (u.finish i.opcode 0#4)) ∨ (∃ e, exec i s = .next (s.raise i.opcode e))

/-- Every command is a completion (R370) of pseudocode that assigns only data (R13). -/
theorem exec_eq_complete (i : Instr) (s : State) :
    ∃ r, exec i s = complete i.opcode r s ∧ ∀ u, r = .ok u → SameControl s u := by
  cases i
  all_goals
    simp only [exec, execNop, execHexl, execHexv, execHexs, execEnc, execSyn, execIscw, execDec, execCmpl, execOctf, execOctr,
      execSel, execDesel, execGrst, execGcmpl, execGdec, execGmask, execGapply, execGperm, execPgen, execPid, execPcomp,
      execPinv, execPapv, execPtest]
    refine ⟨_, rfl, ?_⟩
    intro u hu
  case nop => cases hu; exact .refl s
  case hexl | octr | gmask =>
    split at hu
    · cases hu
    · cases hu; first | exact (SameControl.refl s).setSres _ | exact (SameControl.refl s).setV _ _
  case hexv | hexs | syn | iscw | octf | ptest => cases hu; exact (SameControl.refl s).setSres _
  case enc => cases hu; exact (SameControl.refl s).setV _ _
  case dec => cases hu; exact ((SameControl.refl s).setV _ _).setSres _
  case cmpl =>
    split at hu
    · cases hu
    · cases hu; exact ((SameControl.refl s).setV _ _).setSres _
  case sel | desel | gapply | gperm =>
    split at hu
    · cases hu
    · cases hu; exact (SameControl.refl s).setGrid _
  case grst => cases hu; exact (SameControl.refl s).setGrid _
  case gcmpl =>
    split at hu
    · cases hu
    · cases hu; exact (((SameControl.refl s).setV _ _).setSres _).setGrid _
  case gdec => cases hu; exact (((SameControl.refl s).setV _ _).setSres _).setGrid _
  case pid => cases hu; exact (SameControl.refl s).setP _ _
  case pgen | pinv =>
    split at hu
    · cases hu
    · cases hu; exact (SameControl.refl s).setP _ _
  case pcomp =>
    split at hu
    · cases hu; exact (SameControl.refl s).setP _ _
    · cases hu
    · cases hu
  case papv =>
    split at hu
    · cases hu
    · cases hu; exact (SameControl.refl s).setV _ _

/-- Every command commits or raises (R13, R370). -/
theorem exec_cases (i : Instr) (s : State) : CommitsOrRaises i s := by
  obtain ⟨r, h, hr⟩ := exec_eq_complete i s
  cases r with
  | ok u => exact .inl ⟨u, hr u rfl, h⟩
  | error e => exact .inr ⟨e, h⟩

/-- A command always completes (R325, R372): no stop. -/
theorem exec_completes (i : Instr) (s : State) :
    ∃ t code, exec i s = .next t ∧ code.toNat ≤ 5 ∧ Completed i.opcode code s t := by
  rcases exec_cases i s with ⟨u, hu, h⟩ | ⟨e, h⟩
  · exact ⟨_, 0#4, h, by decide, hu.completed _⟩
  · exact ⟨_, e.code, h, (code_range e).2, (raise_completed s _ e).1⟩

/-- The completion step of any word, legal or not (R115, R370). -/
theorem completionStep_cases (w : Word) (s : State) :
    (∃ i, decode w = some i ∧ completionStep w s = exec i s) ∨
      (decode w = none ∧ completionStep w s = .next (s.raise (opField w) .illegalCommand)) := by
  cases h : decode w with
  | some i => exact .inl ⟨i, rfl, by simp [completionStep, h]⟩
  | none => exact .inr ⟨rfl, by simp [completionStep, h]⟩

end Sys2Proof.Machine
end

