-- ==== Sys2Proof/Laws/Golay.lean ====
section
/-! SUPPORT. The syndrome is linear, and the check matrix's columns are the points' syndromes (41_golay.md R184, R191). -/

namespace Sys2Proof.Machine

/-- The syndrome is linear (R184). -/
theorem syndrome_xor (u w : Vec) : syndrome (u ^^^ w) = syndrome u ^^^ syndrome w := by
  apply BitVec.eq_of_getLsbD_eq
  intro k _
  simp only [syndrome, BitVec.getLsbD_xor, getLsbD_ofBits]
  have h : (u ^^^ w) &&& basis.toList.getD k 0#24 =
      (u &&& basis.toList.getD k 0#24) ^^^ (w &&& basis.toList.getD k 0#24) := by
    ext i; simp [Bool.and_xor_distrib_right]
  rw [h, popcount_xor_mod_two]
  have hm : ∀ m n : Nat, ((m + n) % 2 == 1) = ((m % 2 == 1) ^^ (n % 2 == 1)) := by
    intro m n
    rcases Nat.mod_two_eq_zero_or_one m with h1 | h1 <;> rcases Nat.mod_two_eq_zero_or_one n with h2 | h2 <;>
      simp [Nat.add_mod, h1, h2]
  rw [hm]
  cases decide (k < 12) <;> simp

/-- Every listed column is its point's syndrome. -/
theorem checkColumns_eq : checkColumns = points.map fun (i : Point) => (i.val, (syndrome (delta i)).toNat) := by decide +kernel

theorem checkColumn0_eq : checkColumn0 = (syndrome (delta 0)).toNat := by decide +kernel

/-- A weight counts the set bits. -/
theorem bitCount_eq_countP (x n : Nat) : bitCount x n = (List.range n).countP x.testBit := by
  induction n generalizing x with
  | zero => rfl
  | succ n ih =>
    rw [bitCount, ih, List.range_succ_eq_map, List.countP_cons, List.countP_map, Nat.add_comm]
    congr 1
    · apply List.countP_congr
      intro j _
      simp [Nat.testBit_succ]
    · rw [Nat.testBit_zero]
      rcases Nat.mod_two_eq_zero_or_one x with h | h <;> simp [h]

theorem popcount_eq_countP {n : Nat} (v : BitVec n) : popcount v = (List.range n).countP v.getLsbD :=
  bitCount_eq_countP _ _

/-- A vector of weight 0 is empty. -/
theorem eq_zero_of_popcount {n : Nat} {v : BitVec n} (h : popcount v = 0) : v = 0#n := by
  rw [popcount_eq_countP, List.countP_eq_zero] at h
  apply BitVec.eq_of_getLsbD_eq
  intro i hi
  have := h i (List.mem_range.mpr hi)
  simpa using this

theorem countP_insert (f : Nat → Bool) (i n : Nat) (hi : i < n) (hf : f i = false) :
    (List.range n).countP (fun j => decide (j = i) || f j) = (List.range n).countP f + 1 := by
  induction n with
  | zero => omega
  | succ n ih =>
    rw [List.range_succ, List.countP_append, List.countP_append, List.countP_singleton, List.countP_singleton]
    by_cases h : i = n
    · subst h
      have : (List.range i).countP (fun j => decide (j = i) || f j) = (List.range i).countP f := by
        apply List.countP_congr
        intro j hj
        have : j ≠ i := by have := List.mem_range.mp hj; omega
        simp [this]
      simp [this, hf]
    · rw [ih (by omega)]
      simp [show n ≠ i by omega]
      omega

/-- Adding a point that is not in the set adds one to its weight (R10). -/
theorem popcount_delta_or {i : Nat} {e : Vec} (hi : i < 24) (he : e.getLsbD i = false) :
    popcount (delta i ||| e) = popcount e + 1 := by
  rw [popcount_eq_countP, popcount_eq_countP, ← countP_insert _ i 24 hi he]
  apply List.countP_congr
  intro j hj
  have hj := List.mem_range.mp hj
  simp only [BitVec.getLsbD_or, getLsbD_delta, hj, and_true, show (i = j) = (j = i) from propext eq_comm]

/-- ... and XORs its column into the syndrome (R184). -/
theorem syndrome_delta_or {i : Nat} {e : Vec} (he : e.getLsbD i = false) :
    syndrome (delta i ||| e) = syndrome (delta i) ^^^ syndrome e := by
  rw [← syndrome_xor]
  congr 1
  apply BitVec.eq_of_getLsbD_eq
  intro j _
  by_cases h : i = j
  · subst h; simp [he]
  · simp [h]

/-- The columns that a search goes through: distinct points, each beside its own syndrome. -/
structure Columns (cols : List (Nat × Nat)) : Prop where
  point : ∀ q ∈ cols, q.1 < 24
  col   : ∀ q ∈ cols, q.2 = (syndrome (delta q.1)).toNat
  nodup : (cols.map Prod.fst).Nodup

theorem Columns.tail {q : Nat × Nat} {cols : List (Nat × Nat)} (h : Columns (q :: cols)) : Columns cols :=
  ⟨fun r hr => h.point r (.tail _ hr), fun r hr => h.col r (.tail _ hr), (List.nodup_cons.mp h.nodup).2⟩

theorem checkColumns_columns : Columns checkColumns := by
  rw [checkColumns_eq]
  refine ⟨?_, ?_, by decide⟩ <;>
    · intro q hq
      obtain ⟨i, -, rfl⟩ := List.mem_map.mp hq
      simp

/-- The points of e are all listed. -/
def Listed (e : Vec) (cols : List (Nat × Nat)) : Prop := ∀ j, e.getLsbD j = true → j ∈ cols.map Prod.fst

/-- What `findError` finds: a set of k listed points with the syndrome asked for. -/
theorem findError_sound {k c : Nat} {cols : List (Nat × Nat)} {e : Vec} (hc : Columns cols)
    (h : findError k c cols = some e) : (syndrome e).toNat = c ∧ popcount e = k ∧ Listed e cols := by
  induction cols generalizing k c e with
  | nil =>
    cases k with
    | zero =>
      simp only [findError] at h
      split at h
      · next h0 => cases h; exact ⟨by rw [h0]; decide, by decide, by intro j; simp⟩
      · cases h
    | succ k => simp [findError] at h
  | cons q cols ih =>
    obtain ⟨i, col⟩ := q
    cases k with
    | zero =>
      simp only [findError] at h
      split at h
      · next h0 => cases h; exact ⟨by rw [h0]; decide, by decide, by intro j; simp⟩
      · cases h
    | succ k =>
      have hi : i < 24 := hc.point (i, col) (.head _)
      have hcol : col = (syndrome (delta i)).toNat := hc.col (i, col) (.head _)
      simp only [findError] at h
      split at h
      · next e' he' =>
        obtain ⟨h1, h2, h3⟩ := ih hc.tail he'
        cases h
        have hni : e'.getLsbD i = false := by
          cases hb : e'.getLsbD i with
          | false => rfl
          | true => exact absurd (h3 i hb) (List.nodup_cons.mp hc.nodup).1
        refine ⟨?_, by rw [popcount_delta_or hi hni, h2], ?_⟩
        · rw [syndrome_delta_or hni, BitVec.toNat_xor, h1, hcol, Nat.xor_comm c, ← Nat.xor_assoc, Nat.xor_self, Nat.zero_xor]
        · intro j hj
          simp only [BitVec.getLsbD_or, getLsbD_delta, Bool.or_eq_true, decide_eq_true_eq] at hj
          rcases hj with ⟨rfl, -⟩ | hj
          · exact .head _
          · exact .tail _ (h3 j hj)
      · next hn =>
        obtain ⟨h1, h2, h3⟩ := ih hc.tail h
        exact ⟨h1, h2, fun j hj => .tail _ (h3 j hj)⟩

/-- What `findError` answering none says: no set of k listed points has the syndrome. -/
theorem findError_complete {k c : Nat} {cols : List (Nat × Nat)} (hc : Columns cols)
    (h : findError k c cols = none) (e : Vec) (hl : Listed e cols) (hk : popcount e = k) : (syndrome e).toNat ≠ c := by
  induction cols generalizing k c e with
  | nil =>
    have he : e = 0#24 := by
      apply BitVec.eq_of_getLsbD_eq
      intro j _
      cases hb : e.getLsbD j with
      | false => simp
      | true => exact absurd (hl j hb) (by simp)
    subst he
    have : k = 0 := by rw [← hk]; decide
    subst this
    intro h0
    have : c = 0 := by rw [← h0]; decide
    simp [findError, this] at h
  | cons q cols ih =>
    obtain ⟨i, col⟩ := q
    have hi : i < 24 := hc.point (i, col) (.head _)
    have hcol : col = (syndrome (delta i)).toNat := hc.col (i, col) (.head _)
    cases k with
    | zero =>
      have he := eq_zero_of_popcount hk
      subst he
      intro h0
      have : c = 0 := by rw [← h0]; decide
      simp [findError, this] at h
    | succ k =>
      simp only [findError] at h
      split at h
      · cases h
      · next hn =>
        cases hb : e.getLsbD i with
        | false =>
          refine ih hc.tail h e (fun j hj => ?_) hk
          have := hl j hj
          simp only [List.map_cons, List.mem_cons] at this
          rcases this with rfl | this
          · rw [hb] at hj; cases hj
          · exact this
        | true =>
          have hni : (e ^^^ delta i).getLsbD i = false := by
            simp only [BitVec.getLsbD_xor, getLsbD_delta, hb]; simp [hi]
          have hsplit : e = delta i ||| (e ^^^ delta i) := by
            apply BitVec.eq_of_getLsbD_eq
            intro j hj
            simp only [BitVec.getLsbD_or, BitVec.getLsbD_xor, getLsbD_delta]
            by_cases hij : i = j
            · subst hij; simp only [hb]; simp [hi]
            · simp [hij]
          have hpop : popcount (e ^^^ delta i) = k := by
            have := popcount_delta_or hi hni
            rw [← hsplit, hk] at this
            omega
          have hlist : Listed (e ^^^ delta i) cols := by
            intro j hj
            by_cases hij : i = j
            · subst hij; rw [hni] at hj; cases hj
            · have he : e.getLsbD j = true := by simpa [hij] using hj
              have := hl j he
              simp only [List.map_cons, List.mem_cons] at this
              exact this.resolve_left (Ne.symm hij)
          have := ih hc.tail hn (e ^^^ delta i) hlist hpop
          intro h0
          apply this
          rw [hsplit, syndrome_delta_or hni, BitVec.toNat_xor] at h0
          rw [hcol, ← h0, Nat.xor_comm (syndrome (delta i)).toNat, Nat.xor_assoc, Nat.xor_self, Nat.xor_zero]

/-- A check of every XOR of some of the listed words with acc, by halving: what a fact about all codewords is decided with. -/
def spanAll (p : Vec → Bool) : List Vec → Vec → Bool
  | [],      acc => p acc
  | b :: bs, acc => spanAll p bs acc && spanAll p bs (acc ^^^ b)

theorem spanAll_foldl (p : Vec → Bool) (d : BitVec 12) (l : List (Fin 12)) (acc : Vec)
    (h : spanAll p (l.map fun k => basis[k]) acc = true) :
    p (l.foldl (fun acc (k : Fin 12) => if d.getLsbD k then acc ^^^ basis[k] else acc) acc) = true := by
  induction l generalizing acc with
  | nil => exact h
  | cons k l ih =>
    simp only [List.map_cons, spanAll, Bool.and_eq_true] at h
    rw [List.foldl_cons]
    split
    · exact ih _ h.2
    · exact ih _ h.1

/-- A check that passes on the whole span of the basis passes on every codeword (R181). -/
theorem inCode_all {p : Vec → Bool} (h : spanAll p basis.toList 0#24 = true) {c : Vec} (hc : InCode c) : p c = true := by
  obtain ⟨d, rfl⟩ := hc
  exact spanAll_foldl p d (List.finRange 12) 0#24 (by rwa [show (List.finRange 12).map (fun k => basis[k]) = basis.toList by decide])

end Sys2Proof.Machine
end

