-- ==== Sys2Proof/Laws/Host.lean ====
section
/-! SUPPORT. The host's side: its variables keep their canonical form and read back what was kept (30_encoding.md R120), the
statements it can run, and whose turn a step is (20_memory.md R81). -/

namespace Sys2Proof.Machine

/-- Keeping a value and reading it back. -/
@[simp] theorem varsGet_varsSet_same (k : Nat) (x : Word) (vs : List (Nat × Word)) :
    varsGet k (varsSet k x vs) = some x := by
  induction vs with
  | nil => simp [varsSet, varsGet]
  | cons a vs ih =>
    obtain ⟨a, y⟩ := a
    simp only [varsSet]
    split
    · simp [varsGet]
    · split
      · simp [varsGet]
      · simp [varsGet, show a ≠ k by omega, ih]

/-- Keeping a value leaves every other variable alone. -/
theorem varsGet_varsSet_other {j k : Nat} (h : j ≠ k) (x : Word) (vs : List (Nat × Word)) :
    varsGet j (varsSet k x vs) = varsGet j vs := by
  induction vs with
  | nil => simp [varsSet, varsGet, Ne.symm h]
  | cons a vs ih =>
    obtain ⟨a, y⟩ := a
    simp only [varsSet]
    split
    · simp [varsGet, Ne.symm h]
    · split
      · next h1 h2 => subst h2; simp [varsGet, Ne.symm h]
      · simp only [varsGet, ih]

theorem mem_keys_varsSet {k j : Nat} {x : Word} {vs : List (Nat × Word)}
    (h : j ∈ (varsSet k x vs).map Prod.fst) : j = k ∨ j ∈ vs.map Prod.fst := by
  induction vs with
  | nil => simpa [varsSet] using h
  | cons a vs ih =>
    obtain ⟨a, y⟩ := a
    simp only [varsSet] at h
    split at h
    · simpa using h
    · split at h
      · simp only [List.map_cons, List.mem_cons] at h ⊢; tauto
      · simp only [List.map_cons, List.mem_cons] at h ⊢
        rcases h with h | h
        · exact .inr (.inl h)
        · rcases ih h with h | h
          · exact .inl h
          · exact .inr (.inr h)

/-- The canonical form is kept. -/
theorem varsSet_wf {k : Nat} {x : Word} {vs : List (Nat × Word)} (h : varsWf vs = true) :
    varsWf (varsSet k x vs) = true := by
  simp only [varsWf, decide_eq_true_eq] at h ⊢
  induction vs with
  | nil => simp [varsSet]
  | cons a vs ih =>
    obtain ⟨a, y⟩ := a
    simp only [List.map_cons, List.pairwise_cons] at h
    simp only [varsSet]
    split
    · next h1 =>
      simp only [List.map_cons, List.pairwise_cons, List.mem_cons]
      refine ⟨?_, h⟩
      rintro j (rfl | hj)
      · exact h1
      · exact Nat.lt_trans h1 (h.1 j hj)
    · split
      · next h1 h2 => subst h2; simpa using h
      · next h1 h2 =>
        simp only [List.map_cons, List.pairwise_cons]
        refine ⟨fun j hj => ?_, ih h.2⟩
        rcases mem_keys_varsSet hj with rfl | hj
        · omega
        · exact h.1 j hj

/-- When an access is one of the interface's (R75). -/
theorem accessRefusal_eq_none {bytes : Nat} {off : Offset} :
    accessRefusal bytes off = none ↔ bytes = 4 ∧ off.toNat % 4 = 0 := by
  unfold accessRefusal
  split
  · simp [*]
  · split <;> simp_all

/-- Every way a machine step can go (R81, R370): idle with the host done, a host statement, or the completion that is due. -/
theorem step_cases (s : State) :
    (s.pend = none ∧ s.nextStmt = none ∧ step s = .next s) ∨
    (∃ st, s.pend = none ∧ s.nextStmt = some st ∧ step s = runStmt st s) ∨
    (∃ q, s.pend = some q ∧ (q.delay = 0 ∨ s.hostDone = true) ∧ step s = completionStep q.word s) ∨
    (∃ q st, s.pend = some q ∧ q.delay ≠ 0 ∧ s.hostDone = false ∧ s.nextStmt = some st ∧ step s = runStmt st s.tick) := by
  simp only [step, machineStep]
  cases hp : s.pend with
  | none =>
    cases hn : s.nextStmt with
    | none => exact .inl ⟨rfl, rfl, by simp [hostStep, hn]⟩
    | some st => exact .inr (.inl ⟨st, rfl, rfl, by simp [hostStep, hn]⟩)
  | some q =>
    by_cases hd : q.delay = 0 ∨ s.hostDone = true
    · exact .inr (.inr (.inl ⟨q, rfl, hd, by simp [hd]⟩))
    · obtain ⟨h0, h1⟩ := not_or.mp hd
      have h1 : s.hostDone = false := by simpa using h1
      cases hn : s.nextStmt with
      | none => simp [State.hostDone, hn] at h1
      | some st =>
        refine .inr (.inr (.inr ⟨q, st, rfl, h0, h1, rfl, ?_⟩))
        have : s.tick.nextStmt = some st := hn
        simp [h0, h1, hostStep, this]

/-- The step at a state whose completion is due (R370). -/
theorem step_of_due {s : State} {q : Pending} (h : s.due q) : step s = completionStep q.word s := by
  simp [step, machineStep, h.1, h.2]

/-- Every completion, of a legal or an illegal word, writes the completion fields with one of R320's codes (R324). -/
theorem due_completes {s : State} {q : Pending} (h : s.due q) :
    ∃ t code, step s = .next t ∧ code.toNat ≤ 5 ∧ Completed (q.word.extractLsb' 0 8) code s t := by
  rw [step_of_due h]
  rcases completionStep_cases q.word s with ⟨i, hi, h⟩ | ⟨hi, h⟩
  · obtain ⟨t, c, a, b, d⟩ := exec_completes i s
    exact ⟨t, c, h ▸ a, b, by rw [decode_opcode hi] at d; exact d⟩
  · exact ⟨_, _, h, by decide, (raise_completed s _ .illegalCommand).1⟩

end Sys2Proof.Machine
end

