-- ==== Sys2Proof/Laws/Operands.lean ====
section
/-! SUPPORT. The checked operands (30_encoding.md R113): the value where the operand is in its domain, the error where it is not. -/

namespace Sys2Proof.Machine

/-- A register that holds a bijection is its own permutation operand (R284). -/
theorem permOperand_ok {s : State} {i : PReg} (h : IsBijection s.p[i]) : s.permOperand i = .ok s.p[i] := by
  simp only [State.permOperand, State.getP]
  exact if_pos ((validPerm_iff _).mpr h)

/-- Any other register is InvalidPattern (R284). -/
theorem permOperand_error {s : State} {i : PReg} (h : ¬ IsBijection s.p[i]) : s.permOperand i = .error .invalidPattern := by
  simp only [State.permOperand, State.getP]
  exact if_neg fun h' => h ((validPerm_iff _).mp h')

/-- The generator numbers are 1, 2 and 3 (R247, R290). -/
theorem genOperand_ok {n : Nat} (h : n = 1 ∨ n = 2 ∨ n = 3) : ∃ g, genOperand n = .ok g := by
  rcases h with rfl | rfl | rfl <;> exact ⟨_, rfl⟩

/-- Any other number is UnknownGenerator (R247, R290). -/
theorem genOperand_error {n : Nat} (h : n ≠ 1 ∧ n ≠ 2 ∧ n ≠ 3) : genOperand n = .error .unknownGenerator := by
  match n, h with
  | 0, _ => rfl
  | n + 4, _ => rfl

theorem pointOperand_ok {n : Nat} (h : n < 24) : pointOperand n = .ok ⟨n, h⟩ := dif_pos h
theorem pointOperand_error {n : Nat} (h : 24 ≤ n) : pointOperand n = .error .invalidPattern := dif_neg (by omega)

end Sys2Proof.Machine
end

