-- ==== Sys2Proof/Laws/PerInstr.lean ====
section
/-! SUPPORT. The per-instruction family FixedBits: every command's word has exactly its row's fixed bits,
`(w & mask) == match` (30_encoding.md R112, R114). -/

namespace Sys2Proof.Laws.FixedBits

/-- The encoded word meets the mask and match of its row (R112). -/
def Statement (i : Instr) : Prop := encode i &&& i.format.mask = pattern i.opcode

/-- A mask fixes the opcode byte, and the other fields as far as it says. -/
theorem of_fields (f : Format) {imm : BitVec 12} {b a d : BitVec 4} {op : Byte}
    (hi : imm &&& immField f.mask = 0) (hb : b &&& bField f.mask = 0) (ha : a &&& aField f.mask = 0)
    (hd : d &&& dField f.mask = 0) : assemble imm b a d op &&& f.mask = pattern op := by
  have ho : opField f.mask = BitVec.allOnes 8 := by cases f <;> decide
  rw [← assemble_fields f.mask, assemble_and, pattern_eq_assemble]
  simp only [hi, hb, ha, hd, ho, BitVec.and_allOnes]

/-- A field whose mask bits are all zero is free. -/
theorem free {n : Nat} (x m : BitVec n) (h : m = 0) : x &&& m = 0 := by simp [h]
/-- An unused field is zero. -/
theorem zero {n : Nat} (m : BitVec n) : 0 &&& m = 0 := by simp
/-- A vector index has bit 3 zero. -/
theorem vField (r : VReg) : regField r &&& 0x8#4 = 0 := regField_and_v r
/-- A permutation index has bits 3:2 zero. -/
theorem pField (r : PReg) : regField r &&& 0xC#4 = 0 := regField_and_p r

theorem nop : Statement (.nop) :=
  of_fields .n (zero _) (zero _) (zero _) (zero _)
theorem hexl (p : Nat) : Statement (.hexl p) :=
  of_fields .i (free _ _ (by decide)) (zero _) (zero _) (zero _)
theorem hexv (h : BitVec 12) : Statement (.hexv h) :=
  of_fields .i (free _ _ (by decide)) (zero _) (zero _) (zero _)
theorem hexs (a : VReg) : Statement (.hexs a) :=
  of_fields .va (zero _) (zero _) (vField a) (zero _)
theorem enc (d : VReg) (data : BitVec 12) : Statement (.enc d data) :=
  of_fields .vdi (free _ _ (by decide)) (zero _) (zero _) (vField d)
theorem syn (a : VReg) : Statement (.syn a) :=
  of_fields .va (zero _) (zero _) (vField a) (zero _)
theorem iscw (a : VReg) : Statement (.iscw a) :=
  of_fields .va (zero _) (zero _) (vField a) (zero _)
theorem dec (d a : VReg) : Statement (.dec d a) :=
  of_fields .vda (zero _) (zero _) (vField a) (vField d)
theorem cmpl (d a : VReg) : Statement (.cmpl d a) :=
  of_fields .vda (zero _) (zero _) (vField a) (vField d)
theorem octf (a : VReg) : Statement (.octf a) :=
  of_fields .va (zero _) (zero _) (vField a) (zero _)
theorem octr (d : VReg) (k : Nat) : Statement (.octr d k) :=
  of_fields .vdi (free _ _ (by decide)) (zero _) (zero _) (vField d)
theorem sel (pt : Nat) : Statement (.sel pt) :=
  of_fields .i (free _ _ (by decide)) (zero _) (zero _) (zero _)
theorem desel (pt : Nat) : Statement (.desel pt) :=
  of_fields .i (free _ _ (by decide)) (zero _) (zero _) (zero _)
theorem grst : Statement (.grst) :=
  of_fields .n (zero _) (zero _) (zero _) (zero _)
theorem gcmpl (d : VReg) : Statement (.gcmpl d) :=
  of_fields .vd (zero _) (zero _) (zero _) (vField d)
theorem gdec (d : VReg) : Statement (.gdec d) :=
  of_fields .vd (zero _) (zero _) (zero _) (vField d)
theorem gmask (d : VReg) (k : Nat) : Statement (.gmask d k) :=
  of_fields .vdi (free _ _ (by decide)) (zero _) (zero _) (vField d)
theorem gapply (n : Nat) : Statement (.gapply n) :=
  of_fields .i (free _ _ (by decide)) (zero _) (zero _) (zero _)
theorem gperm (a : PReg) : Statement (.gperm a) :=
  of_fields .pa (zero _) (zero _) (pField a) (zero _)
theorem pgen (d : PReg) (n : Nat) : Statement (.pgen d n) :=
  of_fields .pdi (free _ _ (by decide)) (zero _) (zero _) (pField d)
theorem pid (d : PReg) : Statement (.pid d) :=
  of_fields .pd (zero _) (zero _) (zero _) (pField d)
theorem pcomp (d a b : PReg) : Statement (.pcomp d a b) :=
  of_fields .pdab (zero _) (pField b) (pField a) (pField d)
theorem pinv (d a : PReg) : Statement (.pinv d a) :=
  of_fields .pda (zero _) (zero _) (pField a) (pField d)
theorem papv (d : VReg) (a : PReg) (b : VReg) : Statement (.papv d a b) :=
  of_fields .vpv (zero _) (vField b) (pField a) (vField d)
theorem ptest (a : PReg) : Statement (.ptest a) :=
  of_fields .pa (zero _) (zero _) (pField a) (zero _)

end Sys2Proof.Laws.FixedBits
end

