-- ==== Sys2Proof/Tests/Slice0.lean ====
section
/-! SUPPORT. Tests: the checks of WellFormed refuse an ill-formed term each; words written out from the spec's encodings decode to
the command they stand for; one-step results taken from the tables of 95_test_vectors.md (L2, named at each test); and for every
statement with hypotheses a state and operands that meet them. -/

namespace Sys2Proof.Tests

set_option Elab.async false

open Sys2Proof Sys2Proof.Machine

/-! ## Helpers -/

/-- The next state of an outcome, if it has one. -/
def nextState (o : Host.Outcome State Fault Refusal) : Option State :=
  match o with
  | .next t => some t
  | _       => none

/-- The command runs and its result passes the check. -/
def runs (i : Instr) (s : State) (check : State → Bool) : Bool := (nextState (exec i s)).any check

/-- A next state that passes a check, as a witness. -/
theorem exists_next {o : Host.Outcome State Fault Refusal} {check : State → Bool} (h : (nextState o).any check = true) :
    ∃ t, o = .next t ∧ check t = true := by
  cases o with
  | next t => exact ⟨t, rfl, by simpa [nextState] using h⟩
  | fault f => simp [nextState] at h
  | refused r => simp [nextState] at h

/-- Reset with one vector register set. -/
def withV (i : Fin 8) (x : Vec) : State := State.reset.setV i x
/-- Reset with the permutation register's entries listed. -/
def withP (i : Fin 4) (l : List Nat) : State := State.reset.setP i (Vector.ofFn fun j => BitVec.ofNat 5 (l.getD j.val 0))
/-- Reset with the listed cells Selected. -/
def withSel (l : List Nat) : State :=
  State.reset.setGrid (Vector.ofFn fun j => if j.val ∈ l then .selected else .unselected)
/-- The grid after SEL #0..#4; GCMPL (95_test_vectors.md L2.4). -/
def shown : State :=
  State.reset.setGrid (Vector.ofFn fun j =>
    if j.val < 5 then .selected else if j.val ∈ [11, 17, 23] then .highlightedOctad else .unselected)
/-- A state with a command pending and a host program to run. -/
def pending (w : Word) (delay : Nat) (prog : List HostStmt) : State :=
  { State.reset with pend := some { word := w, delay := delay }, prog := prog }
/-- Reset with a host program loaded. -/
def host (prog : List HostStmt) : State := { State.reset with prog := prog }

/-- The entries of a permutation register as numbers. -/
def entries (p : Perm) : List Nat := p.toList.map BitVec.toNat

def identity : List Nat := [0, 1, 2, 3, 4, 5, 6, 7, 8, 9, 10, 11, 12, 13, 14, 15, 16, 17, 18, 19, 20, 21, 22, 23]
/-- P2 of L2.4: the identity but for entry 5 = 4. -/
def illFormed : List Nat := [0, 1, 2, 3, 4, 4, 6, 7, 8, 9, 10, 11, 12, 13, 14, 15, 16, 17, 18, 19, 20, 21, 22, 23]
/-- g1 and g2 as L2.5 lists them. -/
def g1 : List Nat := [2, 3, 4, 5, 0, 1, 8, 9, 10, 11, 6, 7, 14, 15, 16, 17, 12, 13, 20, 21, 22, 23, 18, 19]
def g2 : List Nat := [1, 0, 2, 3, 4, 5, 7, 6, 8, 9, 10, 11, 19, 18, 20, 21, 22, 23, 13, 12, 14, 15, 16, 17]
/-- P0 = g1 and P1 = g2. -/
def withGens : State := (withP 0 g1).setP 1 (Vector.ofFn fun j => BitVec.ofNat 5 (g2.getD j.val 0))

/-! ## WellFormed refuses each ill-formed term (R118 'An operand out of range for its kind (e.g. `v8`, `p4`, or `#4096`) has no
encoding'); v8 and p4 are not terms at all, since VReg and PReg are Fin 8 and Fin 4. -/

theorem test_wf_hexl : (Instr.hexl 4096).wellFormed = false ∧ (Instr.hexl 4095).wellFormed = true := by decide
theorem test_wf_octr : (Instr.octr 0 4096).wellFormed = false ∧ (Instr.octr 7 4095).wellFormed = true := by decide
theorem test_wf_sel : (Instr.sel 4096).wellFormed = false ∧ (Instr.sel 4095).wellFormed = true := by decide
theorem test_wf_desel : (Instr.desel 4096).wellFormed = false ∧ (Instr.desel 4095).wellFormed = true := by decide
theorem test_wf_gmask : (Instr.gmask 0 4096).wellFormed = false ∧ (Instr.gmask 7 4095).wellFormed = true := by decide
theorem test_wf_gapply : (Instr.gapply 4096).wellFormed = false ∧ (Instr.gapply 4095).wellFormed = true := by decide
theorem test_wf_pgen : (Instr.pgen 0 4096).wellFormed = false ∧ (Instr.pgen 3 4095).wellFormed = true := by decide

/-! ## Decoding (the words of 95_test_vectors.md L2.1-L2.6; the first of each family bit by bit, IMM ++ B ++ A ++ D ++ OP, R110) -/

theorem test_decode_hexacode_bits :
    decode (0b000000000110#12 ++ 0b0000#4 ++ 0b0000#4 ++ 0b0000#4 ++ 0b00000001#8) = some (.hexl 6) := by decide +kernel
theorem test_decode_golay_bits :
    decode (0b000000000000#12 ++ 0b0000#4 ++ 0b0001#4 ++ 0b0010#4 ++ 0b00010011#8) = some (.dec 2 1) := by decide +kernel
theorem test_decode_octad_bits :
    decode (0b001000010000#12 ++ 0b0000#4 ++ 0b0000#4 ++ 0b0011#4 ++ 0b00100010#8) = some (.octr 3 528) := by decide +kernel
theorem test_decode_grid_bits :
    decode (0b000000010111#12 ++ 0b0000#4 ++ 0b0000#4 ++ 0b0000#4 ++ 0b00110000#8) = some (.sel 23) := by decide +kernel
theorem test_decode_group_bits :
    decode (0b000000000000#12 ++ 0b0001#4 ++ 0b0000#4 ++ 0b0010#4 ++ 0b01000010#8) = some (.pcomp 2 0 1) := by decide +kernel
theorem test_decode_hexacode : decode 0x01000001#32 = some (.hexl 16) ∧ decode 0x55100002#32 = some (.hexv 0x551#12) ∧
    decode 0x00001003#32 = some (.hexs 1) := by decide +kernel
theorem test_decode_golay : decode 0x5A300110#32 = some (.enc 1 0x5A3#12) ∧ decode 0x00001011#32 = some (.syn 1) ∧
    decode 0x00001012#32 = some (.iscw 1) ∧ decode 0x00001213#32 = some (.dec 2 1) := by decide +kernel
theorem test_decode_octad : decode 0x00001220#32 = some (.cmpl 2 1) ∧ decode 0x00000021#32 = some (.octf 0) ∧
    decode 0x2F600322#32 = some (.octr 3 758) := by decide +kernel
theorem test_decode_grid : decode 0x00000000#32 = some .nop ∧ decode 0x01700030#32 = some (.sel 23) ∧
    decode 0x00300031#32 = some (.desel 3) ∧ decode 0x00000032#32 = some .grst ∧ decode 0x00000033#32 = some (.gcmpl 0) ∧
    decode 0x00000334#32 = some (.gdec 3) ∧ decode 0x00200135#32 = some (.gmask 1 2) ∧
    decode 0x00100036#32 = some (.gapply 1) ∧ decode 0x00002037#32 = some (.gperm 2) := by decide +kernel
theorem test_decode_group : decode 0x00300040#32 = some (.pgen 0 3) ∧ decode 0x00000341#32 = some (.pid 3) ∧
    decode 0x00010242#32 = some (.pcomp 2 0 1) ∧ decode 0x00000143#32 = some (.pinv 1 0) ∧
    decode 0x00000144#32 = some (.papv 1 0 0) ∧ decode 0x00000045#32 = some (.ptest 0) := by decide +kernel
/-- L2.6. -/
theorem test_decode_illegal : decode 0x00000004#32 = none ∧ decode 0x000000FF#32 = none ∧ decode 0x00100000#32 = none ∧
    decode 0x00000810#32 = none ∧ decode 0x00600101#32 = none ∧ decode 0x00040242#32 = none ∧
    decode 0x00100440#32 = none ∧ decode 0x00001032#32 = none := by decide +kernel
theorem test_decode_table_word : decodeTableWord 32 0x00001213 = some (.dec 2 1) := by decide +kernel

/-! ## One step of each command (95_test_vectors.md, the section named) -/

/-- L2.1. -/
theorem test_hexl : runs (.hexl 6) .reset (·.sres == 0x38#32) = true := by decide +kernel
theorem test_hexl_range : runs (.hexl 16) .reset (·.statusWord == 0x0000011A#32) = true := by decide +kernel
theorem test_hexv : runs (.hexv 0x550#12) .reset (·.sres == 1#32) = true ∧ runs (.hexv 0x551#12) .reset (·.sres == 0#32) = true := by
  decide +kernel
theorem test_hexs : runs (.hexs 1) (withV 1 0xE631A3#24) (·.sres == 0x003FF7DD#32) = true := by decide +kernel
theorem test_hexs_point : runs (.hexs 1) (withV 1 0x000001#24) (·.sres == 0x000C1000#32) = true := by decide +kernel
/-- L2.2. -/
theorem test_enc : runs (.enc 1 0x5A3#12) .reset (fun t => t.v[1] == 0xE631A3#24 && t.sres == 0#32) = true := by decide +kernel
theorem test_syn : runs (.syn 1) (withV 1 0x800000#24) (·.sres == 0x00000D9C#32) = true := by decide +kernel
theorem test_iscw : runs (.iscw 1) (withV 1 0x7DF7E0#24) (·.sres == 1#32) = true ∧
    runs (.iscw 1) (withV 1 0x6633A2#24) (·.sres == 0#32) = true := by decide +kernel
theorem test_dec : runs (.dec 2 1) (withV 1 0x6633A2#24) (fun t => t.v[2] == 0xE631A3#24 && t.sres == 0x03800201#32) = true := by
  decide +kernel
theorem test_dec_tie : runs (.dec 2 1) (withV 1 0x00001E#24) (fun t => t.v[2] == 0x82081F#24 && t.sres == 0x0C820801#32) = true := by
  decide +kernel
/-- L2.3. -/
theorem test_cmpl : runs (.cmpl 2 1) (withV 1 0x00001F#24) (fun t => t.v[2] == 0x82081F#24 && t.sres == 0x00820800#32) = true := by
  decide +kernel
theorem test_cmpl_none : runs (.cmpl 2 1) (withV 1 0x00003F#24) (fun t => t.v[2] == 0#24 && t.statusWord == 0x0000202A#32) = true := by
  decide +kernel
theorem test_octf : runs (.octf 0) (withV 0 0x82081F#24) (·.sres == 0x80000210#32) = true := by decide +kernel
theorem test_octf_above : runs (.octf 0) (withV 0 0xFFFFFF#24) (·.sres == 0x000002F7#32) = true := by decide +kernel
theorem test_octr : runs (.octr 3 758) .reset (·.v[3] == 0xF82081#24) = true := by decide +kernel
theorem test_octr_range : runs (.octr 3 759) .reset (·.statusWord == 0x0000221A#32) = true := by decide +kernel
/-- L2.4. -/
theorem test_sel : runs (.sel 23) (withSel [0, 1, 2, 3, 4]) (fun t => t.gridLo == 0x155#32 && t.gridHi == 0x4000#32) = true := by
  decide +kernel
theorem test_sel_range : runs (.sel 24) .reset (·.statusWord == 0x0000301A#32) = true := by decide +kernel
theorem test_desel : runs (.desel 3) (withSel [0, 1, 2, 3]) (·.gridLo == 0x15#32) = true := by decide +kernel
theorem test_grst : runs .grst (withSel [0, 23]) (fun t => t.gridLo == 0#32 && t.gridHi == 0#32) = true := by decide +kernel
theorem test_gcmpl : runs (.gcmpl 0) (withSel [0, 1, 2, 3, 4]) (fun t =>
    t.v[0] == 0x82081F#24 && t.sres == 0x00820800#32 && t.gridLo == 0x00800155#32 && t.gridHi == 0x00008008#32) = true := by
  decide +kernel
theorem test_gcmpl_few : runs (.gcmpl 0) (withSel [0, 1, 2, 3]) (·.statusWord == 0x0000333A#32) = true := by decide +kernel
theorem test_gdec : runs (.gdec 3) (withSel [1, 2, 3, 4]) (fun t =>
    t.v[3] == 0x82081F#24 && t.sres == 0x0C820801#32 && t.gridLo == 0x00C00157#32 && t.gridHi == 0x0000C00C#32) = true := by
  decide +kernel
theorem test_gmask : runs (.gmask 1 0) shown (·.v[1] == 0x7DF7E0#24) = true ∧
    runs (.gmask 1 2) shown (·.v[1] == 0x820800#24) = true := by decide +kernel
theorem test_gmask_range : runs (.gmask 1 4) shown (·.statusWord == 0x0000351A#32) = true := by decide +kernel
theorem test_gapply : runs (.gapply 1) shown (fun t => t.gridLo == 0x08008551#32 && t.gridHi == 0x00000080#32) = true := by
  decide +kernel
theorem test_gapply_unknown : runs (.gapply 4) shown (·.statusWord == 0x0000364A#32) = true := by decide +kernel
theorem test_gperm : runs (.gperm 0) (shown.setP 0 (withP 0 g1).p[0]) (fun t =>
    t.gridLo == 0x08008551#32 && t.gridHi == 0x00000080#32) = true := by decide +kernel
theorem test_gperm_ill : runs (.gperm 2) (withP 2 illFormed) (·.statusWord == 0x0000371A#32) = true := by decide +kernel
theorem test_nop : runs .nop .reset (·.statusWord == 0x00000002#32) = true := by decide +kernel
/-- L2.5. -/
theorem test_pgen : runs (.pgen 0 3) .reset (fun t => entries t.p[0] ==
    [0, 1, 2, 3, 4, 6, 5, 10, 16, 22, 7, 11, 18, 21, 19, 20, 8, 17, 12, 14, 15, 13, 9, 23]) = true := by decide +kernel
theorem test_pgen_unknown : runs (.pgen 0 0) .reset (·.statusWord == 0x0000404A#32) = true := by decide +kernel
theorem test_pid : runs (.pid 3) (withP 3 g1) (entries ·.p[3] == identity) = true := by decide +kernel
theorem test_pcomp : runs (.pcomp 2 0 1) withGens (fun t => entries t.p[2] ==
    [2, 3, 4, 5, 1, 0, 8, 9, 10, 11, 7, 6, 20, 21, 22, 23, 19, 18, 14, 15, 16, 17, 13, 12]) = true := by decide +kernel
theorem test_pcomp_alias : runs (.pcomp 0 0 0) withGens (fun t => entries t.p[0] ==
    [4, 5, 0, 1, 2, 3, 10, 11, 6, 7, 8, 9, 16, 17, 12, 13, 14, 15, 22, 23, 18, 19, 20, 21]) = true := by decide +kernel
theorem test_pinv : runs (.pinv 1 0) withGens (fun t => entries t.p[1] ==
    [4, 5, 0, 1, 2, 3, 10, 11, 6, 7, 8, 9, 16, 17, 12, 13, 14, 15, 22, 23, 18, 19, 20, 21]) = true := by decide +kernel
theorem test_pinv_ill : runs (.pinv 1 0) (withP 0 illFormed) (·.statusWord == 0x0000431A#32) = true := by decide +kernel
theorem test_papv : runs (.papv 1 0 0) (withGens.setV 0 0x00001F#24) (·.v[1] == 0x00003D#24) = true := by decide +kernel
theorem test_papv_ill : runs (.papv 1 0 0) (withP 0 illFormed) (·.statusWord == 0x0000441A#32) = true := by decide +kernel
theorem test_ptest : runs (.ptest 0) withGens (·.sres == 3#32) = true := by decide +kernel
theorem test_ptest_swap : runs (.ptest 0) (withP 0 (1 :: 0 :: identity.drop 2)) (·.sres == 1#32) = true := by decide +kernel

/-! ## The window, the step and the host (L2.6, L2.7) -/

theorem test_illegal_word :
    (nextState (step (State.reset.withFetchWord 32 0x000000FF))).any (·.statusWord == 0x0000FF5A#32) = true := by decide +kernel
theorem test_fetch_word : (nextState (step ((withV 1 0x6633A2#24).withFetchWord 32 0x00001213))).any (fun t =>
    t.v[2] == 0xE631A3#24 && t.statusWord == 0x00001302#32) = true := by decide +kernel
theorem test_read_p25 : State.reset.busRead 0x214#12 = 0x5#32 ∧ State.reset.busRead 0x160#12 = 0#32 := by decide +kernel
theorem test_write_v1 : (State.reset.busWrite 0x024#12 0xFFFFFFFF#32).busRead 0x024#12 = 0x00FFFFFF#32 := by decide +kernel
theorem test_write_p03 : (State.reset.busWrite 0x10C#12 0xFFFFFFFF#32).busRead 0x10C#12 = 0x1F#32 := by decide +kernel
theorem test_blocked_write : ((pending 0#32 1 []).busWrite 0x020#12 0x123#32).busRead 0x008#12 = 0x5#32 ∧
    ((pending 0#32 1 []).busWrite 0x020#12 0x123#32).busRead 0x020#12 = 0#32 := by decide +kernel
theorem test_soft_reset : (pending 0x00100110#32 1 []).busWrite 0x004#12 0x3#32 = State.reset := by decide +kernel
/-- R360: the platform's reset, with a command pending. -/
theorem test_power_reset : (nextState (step (pending 0x00100110#32 1 [.powerReset]))).any (fun t =>
    t.pend.isNone && t.statusWord == 0#32 && t.pos == 1) = true := by decide +kernel
/-- R120, R121: `wait` as its two statements; R118: the text of a command. -/
theorem test_notation : waitStmts 7 = [.rd 4 0x008#12, .bnz 0x008#12 0 1 7] ∧ asmText (.pcomp 2 0 1) = "PCOMP p2, p0, p1" ∧
    ldvStmts 3 0x82081F#24 = [.wr 4 0x02C#12 0x0082081F#32] := by decide +kernel

/-! ## Witnesses: for every statement with hypotheses, a state and operands that meet them -/

theorem witness_DecodeOfEncode : ∃ i : Instr, i.wellFormed = true := ⟨.octr 7 4095, by decide⟩
theorem witness_EncodeOfDecode : ∃ w i, decode w = some i := ⟨0xFFF00722#32, .octr 7 4095, by decide +kernel⟩
theorem witness_AssembledWordIsItsFields : (Instr.pgen 3 4095).wellFormed = true := by decide
theorem witness_LegalWordsAreTheOpcodeTable : ∃ r ∈ opcodeRows, 0xFFF00336#32 &&& r.2 ≠ r.1 ∧ 0xFFF00340#32 &&& (0x000FFCFF#32) = 0x40#32 :=
  ⟨(0x00000036#32, 0x000FFFFF#32), by decide +kernel, by decide +kernel⟩

theorem due_now : (pending 0x00001213#32 0 [.jmp 0]).due { word := 0x00001213#32, delay := 0 } := ⟨rfl, .inl rfl⟩
theorem due_at_halt : (pending 0x00001213#32 5 [.halt]).due { word := 0x00001213#32, delay := 5 } := ⟨rfl, .inr rfl⟩
theorem witness_StepRunsThePendingCommand : ∃ s q i, State.due s q ∧ decode q.word = some i :=
  ⟨_, _, .dec 2 1, due_at_halt, by decide +kernel⟩
theorem witness_StepRunsTheHostOtherwise :
    (State.reset.pend = none ∧ State.reset.nextStmt = none) ∧
    ((host [.halt]).pend = none ∧ (host [.halt]).nextStmt = some .halt) ∧
    ((pending 0#32 1 [.jmp 0]).pend = some { word := 0#32, delay := 0 + 1 } ∧ (pending 0#32 1 [.jmp 0]).nextStmt = some (.jmp 0)) := by
  decide +kernel
theorem witness_CompletionFieldsAreWritten : (∃ s q i, State.due s q ∧ decode q.word = some i) ∧
    ∃ s q, State.due s q ∧ decode q.word = none :=
  ⟨⟨_, _, .dec 2 1, due_now, by decide +kernel⟩,
    pending 0x00001032#32 0 [], { word := 0x00001032#32, delay := 0 }, ⟨rfl, .inl rfl⟩, by decide +kernel⟩
theorem witness_ErrorsCommitNothing : ∃ s q t, State.due s q ∧ step s = .next t ∧ t.errCode ≠ 0#4 := by
  obtain ⟨t, h, h'⟩ := exists_next (o := step (pending 0x01000001#32 0 [])) (check := fun t => t.errCode == 1#4) (by decide +kernel)
  exact ⟨_, { word := 0x01000001#32, delay := 0 }, t, ⟨rfl, .inl rfl⟩, h, by simp_all⟩
theorem witness_IllegalWordRaisesIllegalCommand :
    (pending 0x00001032#32 0 []).due { word := 0x00001032#32, delay := 0 } ∧ ∀ r ∈ opcodeRows, 0x00001032#32 &&& r.2 ≠ r.1 :=
  ⟨⟨rfl, .inl rfl⟩, fun r hr => by
    have h : (opcodeRows.all fun r => 0x00001032#32 &&& r.2 != r.1) = true := by decide +kernel
    simpa using List.all_eq_true.mp h r hr⟩
theorem witness_PendingCommandCompletes : ∃ s q, s.pend = some q ∧ q.delay = 3 ∧ State.cleanProgram s = true :=
  ⟨pending 0#32 3 [.rd 4 0xFFC#12, .jmp 0], _, rfl, rfl, by decide +kernel⟩
theorem witness_DataStaysWhileCommandIsPending : ∃ s q t r, s.pend = some q ∧ step s = .next t ∧ t.pend = some r :=
  ⟨pending 0#32 1 [.jmp 0], _, _, _, rfl, rfl, rfl⟩
theorem witness_IssueAndWaitRunsTheCommand :
    let s := host [.wr 4 0x00C#12 0x00000004#32, .rd 4 0x008#12, .bnz 0x008#12 0 1 1]
    s.pend = none ∧ s.prog[s.pos]? = some (.wr 4 0x00C#12 0x00000004#32) ∧ s.prog[s.pos + 1]? = some (.rd 4 0x008#12) ∧
      s.prog[s.pos + 2]? = some (.bnz 0x008#12 0 1 (s.pos + 1)) := by decide +kernel

theorem witness_ResetFromAnyState : (0xFFFFFFFF#32).getLsbD 0 = true ∧
    (∀ q, ¬ (host [.powerReset]).due q) ∧ (host [.powerReset]).nextStmt = some .powerReset ∧
    ∃ t, step (host [.powerReset]) = .next t :=
  ⟨by decide, fun _ h => by simpa [host, State.reset] using h.1, rfl, _, rfl⟩
theorem witness_CtrlAccess : (0xFFFFFFFE#32).getLsbD 0 = false := by decide
theorem witness_CmdAccess : State.reset.pend = none ∧ (pending 0#32 0 []).pend.isSome = true := by decide +kernel
theorem witness_VectorRegisterAccess : State.reset.pend = none ∧ (pending 0xFFFFFFFF#32 1 []).pend.isSome = true := by decide +kernel
theorem witness_PermutationEntryAccess : (host [.halt]).pend = none ∧ (pending 0x00000045#32 2 []).pend.isSome = true := by
  decide +kernel
theorem witness_ReadOnlyRegisters : 15 < 16 ∧ 7 < 8 := by decide
theorem witness_UnmappedAndReadOnlyOffsets :
    ∀ off ∈ [0x000#12, 0x018#12, 0x01C#12, 0x040#12, 0x0FC#12, 0x160#12, 0x2FC#12, 0x300#12, 0xFFC#12],
      off.toNat % 4 = 0 ∧ off ≠ 0x004#12 ∧ off ≠ 0x008#12 ∧ off ≠ 0x00C#12 ∧
      (∀ i : Fin 8, off ≠ BitVec.ofNat 12 (0x020 + 4 * i.val)) ∧
      ∀ (i : Fin 4) (j : Fin 24), off ≠ BitVec.ofNat 12 (0x100 + 0x80 * i.val + 4 * j.val) := by decide +kernel
/-- Idle and pending; a read and a write at the ends of the window, and each branch. -/
theorem witness_HostAccessSteps :
    ((host [.rd 4 0xFFC#12]).pend = none ∧ (0xFFC#12).toNat % 4 = 0 ∧ (host [.rd 4 0xFFC#12]).nextStmt = some (.rd 4 0xFFC#12)) ∧
    ((pending 0#32 1 [.wr 4 0x000#12 7#32]).pend = some { word := 0#32, delay := 0 + 1 } ∧ (0x000#12).toNat % 4 = 0 ∧
      (pending 0#32 1 [.wr 4 0x000#12 7#32]).nextStmt = some (.wr 4 0x000#12 7#32)) ∧
    (host [.bnz 0x008#12 0 1 0]).nextStmt = some (.bnz 0x008#12 0 1 0) ∧
    (host [.bz 0x010#12 31 1 5]).nextStmt = some (.bz 0x010#12 31 1 5) ∧
    (pending 0#32 2 [.jmp 0]).nextStmt = some (.jmp 0) := by decide +kernel
theorem witness_AccessOutsideTheInterfaceIsRefused :
    ((host [.rd 1 0x003#12]).nextStmt = some (.rd 1 0x003#12)) ∧ ((0xFFF#12).toNat % 4 ≠ 0) ∧
    (pending 0#32 1 [.wr 4 0xFFF#12 0#32]).nextStmt = some (.wr 4 0xFFF#12 0#32) ∧
    ∀ q, (pending 0#32 1 [.wr 4 0xFFF#12 0#32]).pend = some q → q.delay ≠ 0 :=
  ⟨by decide +kernel, by decide, by decide +kernel, fun q h => by cases h; decide⟩
theorem witness_InterruptLine : (∃ s q t, State.due s q ∧ step s = .next t) ∧ (0x2#32).getLsbD 1 = true ∧
    (0xFFFFFFFC#32).getLsbD 0 = false ∧ (0xFFFFFFFC#32).getLsbD 1 = false := by
  obtain ⟨t, h, -⟩ := exists_next (o := step (pending 0#32 0 [])) (check := fun _ => true) (by decide +kernel)
  exact ⟨⟨_, { word := 0#32, delay := 0 }, t, ⟨rfl, .inl rfl⟩, h⟩, by decide, by decide, by decide⟩
theorem witness_CleanProgramsNeverStop : (host [.wr 4 0xFFC#12 0#32, .powerReset, .halt]).cleanProgram = true := by decide +kernel
theorem witness_StepKeepsTheInvariant : ∃ s t, State.Inv s ∧ step s = .next t :=
  ⟨host [.jmp 0], _, ⟨rfl, by decide, rfl⟩, rfl⟩
theorem witness_OnlyTheseCommandsWrite :
    runs (.enc 0 1#12) .reset (fun t => decide (t.v ≠ State.reset.v)) = true ∧
    runs (.pgen 0 1) .reset (fun t => decide (t.p ≠ State.reset.p)) = true ∧
    runs (.sel 0) .reset (fun t => decide (t.grid ≠ State.reset.grid)) = true ∧
    runs (.hexl 0) .reset (fun t => decide (t.sres ≠ State.reset.sres)) = true := by decide +kernel

theorem octad_82081F : IsOctad 0x82081F#24 := ⟨⟨0x01F#12, by decide +kernel⟩, by decide +kernel⟩
theorem no_octad_00003F : ∀ O, IsOctad O → ¬ Within 0x00003F#24 O := by
  intro O hO hw
  have := inCode_all (p := fun O => !(0x00003F#24 &&& O == 0x00003F#24 && popcount O == 8)) (by decide +kernel) hO.1
  simp_all [Within, hO.2]

theorem witness_HexlLooksUpThePattern : 15 ≤ 15 ∧ 16 > 15 := by decide
theorem witness_IscwTestsMembership : InCode 0xFFFFFF#24 ∧ ¬ InCode 0x000001#24 :=
  ⟨⟨0xFFF#12, by decide +kernel⟩, fun h => by
    have := inCode_all (p := fun c => c != 0x000001#24) (by decide +kernel) h
    simp at this⟩
theorem witness_DecCorrectsUpToThreeErrors : InCode 0xE631A3#24 ∧ popcount 0x800201#24 ≤ 3 ∧
    (withV 1 0x6633A2#24).v[(1 : VReg)] = 0xE631A3#24 ^^^ 0x800201#24 :=
  ⟨⟨0x5A3#12, by decide +kernel⟩, by decide +kernel, by decide +kernel⟩
theorem witness_CmplCompletesToTheOctad :
    (5 ≤ popcount (withV 1 0x00001F#24).v[(1 : VReg)] ∧ IsOctad 0x82081F#24 ∧ Within (withV 1 0x00001F#24).v[(1 : VReg)] 0x82081F#24) ∧
    popcount (withV 1 0x00000F#24).v[(1 : VReg)] < 5 ∧
    (5 ≤ popcount (withV 1 0x00003F#24).v[(1 : VReg)] ∧ ∀ O, IsOctad O → ¬ Within (withV 1 0x00003F#24).v[(1 : VReg)] O) :=
  ⟨⟨by decide +kernel, octad_82081F, by unfold Within; decide +kernel⟩, by decide +kernel, by decide +kernel, no_octad_00003F⟩
theorem witness_FivePointsLieInOneOctad : popcount (withV 1 0x00001F#24).v[(1 : VReg)] = 5 := by decide +kernel
theorem witness_CompletionThroughTheDecoder : (5 ≤ popcount 0x00001F#24 ∧ popcount 0x00001F#24 ≤ 8) ∧
    5 ≤ popcount 0x0000FF#24 ∧ popcount 0x0000FF#24 ≤ 8 := by decide +kernel
theorem witness_OctrReadsByIndex : 758 < 759 ∧ 759 ≥ 759 := by decide
theorem witness_SelAndDesel : 23 < 24 ∧ 24 ≤ 24 := by decide
theorem witness_GcmplCompletesTheGrid :
    (IsSelection (withSel [0, 1, 2, 3, 4]).grid 0x00001F#24 ∧ 5 ≤ popcount 0x00001F#24 ∧ IsOctad 0x82081F#24 ∧
      Within 0x00001F#24 0x82081F#24) ∧
    (IsSelection (withSel [0, 1, 2, 3]).grid 0x00000F#24 ∧ popcount 0x00000F#24 < 5) ∧
    (IsSelection (withSel [0, 1, 2, 3, 4, 5]).grid 0x00003F#24 ∧ 5 ≤ popcount 0x00003F#24 ∧
      ∀ O, IsOctad O → ¬ Within 0x00003F#24 O) :=
  ⟨⟨by unfold IsSelection; decide +kernel, by decide +kernel, octad_82081F, by unfold Within; decide +kernel⟩,
    ⟨by unfold IsSelection; decide +kernel, by decide +kernel⟩,
    by unfold IsSelection; decide +kernel, by decide +kernel, no_octad_00003F⟩
theorem witness_GdecDecodesTheGrid : IsSelection (withSel [1, 2, 3, 4]).grid 0x00001E#24 := by unfold IsSelection; decide +kernel
theorem witness_GmaskReadsTheGrid : 3 ≤ 3 ∧ 3 < 4 := by decide
theorem witness_GapplyMovesTheCells : (1 ≤ 1 ∧ 3 ≤ 3) ∧ (0 = 0 ∨ 4 ≤ 0) ∧ (4 = 0 ∨ 4 ≤ 4) := by decide
theorem witness_GeneratorOrders : (2 = 2 ∨ 2 = 3) ∧ (3 = 2 ∨ 3 = 3) := by decide
theorem bijection_g1 : IsBijection withGens.p[(0 : PReg)] := by unfold IsBijection; decide +kernel
theorem bijection_g2 : IsBijection withGens.p[(1 : PReg)] := by unfold IsBijection; decide +kernel
theorem no_bijection_repeated : ¬ IsBijection (withP 2 illFormed).p[(2 : PReg)] := by unfold IsBijection; decide +kernel
theorem no_bijection_24 : ¬ IsBijection (withP 2 (identity.take 23 ++ [24])).p[(2 : PReg)] := by unfold IsBijection; decide +kernel
theorem witness_GpermMovesTheCells : (∃ (s : State) (a : PReg), IsBijection s.p[a]) ∧ ∃ (s : State) (a : PReg), ¬ IsBijection s.p[a] :=
  ⟨⟨_, _, bijection_g1⟩, _, _, no_bijection_24⟩
theorem witness_PgenAndPid : 0 ≠ 1 ∧ 0 ≠ 2 ∧ 0 ≠ 3 ∧ 4 ≠ 1 ∧ 4 ≠ 2 ∧ 4 ≠ 3 := by decide
theorem witness_PcompComposes : (IsBijection withGens.p[(0 : PReg)] ∧ IsBijection withGens.p[(1 : PReg)]) ∧
    (¬ IsBijection (withP 2 illFormed).p[(2 : PReg)] ∨ ¬ IsBijection (withP 2 illFormed).p[(0 : PReg)]) :=
  ⟨⟨bijection_g1, bijection_g2⟩, .inl no_bijection_repeated⟩
theorem witness_PinvInverts : (∃ (s : State) (a : PReg), IsBijection s.p[a]) ∧ ∃ (s : State) (a : PReg), ¬ IsBijection s.p[a] :=
  ⟨⟨_, _, bijection_g2⟩, _, _, no_bijection_repeated⟩
theorem witness_InverseComposesToTheIdentity : IsBijection withGens.p[(0 : PReg)] ∧ (1 : PReg) ≠ 0 := ⟨bijection_g1, by decide⟩
theorem witness_PapvMovesThePoints : (∃ (s : State) (a : PReg), IsBijection s.p[a]) ∧ ∃ (s : State) (a : PReg), ¬ IsBijection s.p[a] :=
  ⟨⟨_, _, bijection_g1⟩, _, _, no_bijection_24⟩
theorem witness_AutomorphismsAreClosed : isAut withGens.p[(0 : PReg)] = true ∧ isAut withGens.p[(1 : PReg)] = true := by
  decide +kernel

end Sys2Proof.Tests
end

/-! PROOFS. The state, the register window, the host's statements and what the commands write: the rules of the state's operations
first, then the obligations of this family (10_state.md; 20_memory.md R70-R81; 60_exceptions.md R320-R330). -/

namespace Sys2Proof.Machine

/-! ## Whose turn a step is -/

/-- With no command pending no completion is due. -/
theorem not_due_of_idle {s : State} (h : s.pend = none) (q : Pending) : ¬ s.due q :=
  fun hq => nomatch h.symm.trans hq.1

/-- A host that stands at a statement other than `halt` has a step left. -/
theorem hostDone_eq_false {s : State} {st : HostStmt} (hn : s.nextStmt = some st) (hst : st ≠ .halt) :
    s.hostDone = false := by
  cases st with
  | halt => exact absurd rfl hst
  | _ => simp only [State.hostDone, hn]

/-- A pending command with delay left is not due while the host has a step left (R372). -/
theorem not_due_of_delay {s : State} {w : Word} {n : Nat} {st : HostStmt}
    (hp : s.pend = some { word := w, delay := n + 1 }) (hn : s.nextStmt = some st) (hst : st ≠ .halt)
    (q : Pending) : ¬ s.due q := by
  rintro ⟨hq, hdue⟩
  obtain rfl : { word := w, delay := n + 1 } = q := Option.some.inj (hp.symm.trans hq)
  simp [hostDone_eq_false hn hst] at hdue

/-- The delay counter of an idle core does not move. -/
theorem tick_of_idle {s : State} (h : s.pend = none) : s.tick = s := by
  cases s
  cases h
  rfl

/-- The delay counter of a pending command moves by one (R372). -/
theorem tick_of_delay {s : State} {w : Word} {n : Nat} (h : s.pend = some { word := w, delay := n + 1 }) :
    s.tick = { s with pend := some { word := w, delay := n } } := by
  simp [State.tick, h]

/-- Where no completion is due the step is the host's, after the delay counter moved (R81). -/
theorem step_of_not_due {s : State} (h : ∀ q, ¬ s.due q) : step s = hostStep s.tick := by
  simp only [step, machineStep]
  cases hp : s.pend with
  | none => simp only [tick_of_idle hp]
  | some q => exact if_neg fun hd => h q ⟨hp, hd⟩

/-- The host's step is its next statement, if it has one (R31, R343). -/
theorem hostStep_of_none {s : State} (h : s.nextStmt = none) : hostStep s = .next s := by
  simp only [hostStep, h]
theorem hostStep_of_some {s : State} {st : HostStmt} (h : s.nextStmt = some st) : hostStep s = runStmt st s := by
  simp only [hostStep, h]

@[simp] theorem tick_nextStmt (s : State) : s.tick.nextStmt = s.nextStmt := rfl
@[simp] theorem tick_hostVar (s : State) (reg : Offset) : s.tick.hostVar reg = s.hostVar reg := rfl

/-- Where no completion is due the step is the host's next statement (R81, R120). -/
theorem step_eq_runStmt {s : State} {st : HostStmt} (h : ∀ q, ¬ s.due q) (hn : s.nextStmt = some st) :
    step s = runStmt st s.tick := by
  rw [step_of_not_due h, hostStep_of_some (by simpa using hn)]

/-- A step at a state whose completion is due ends as a completion with one of R320's codes (R324). -/
theorem completed_of_due {s t : State} {q : Pending} (h : s.due q) (hs : step s = .next t) :
    ∃ code, code.toNat ≤ 5 ∧ Completed (q.word.extractLsb' 0 8) code s t := by
  obtain ⟨t', code, hst, hle, hc⟩ := due_completes h
  obtain rfl : t' = t := by simpa [hst] using hs
  exact ⟨code, hle, hc⟩

/-! ## What a host statement does -/

/-- Every way a host statement can end in a next state (R120): it reads, it writes, it only moves the position, or it is the
platform's reset. -/
theorem runStmt_cases {st : HostStmt} {s t : State} (h : runStmt st s = .next t) :
    (∃ off, st = .rd 4 off ∧ t = (s.keepRead off (s.busRead off)).advance) ∨
    (∃ off x, st = .wr 4 off x ∧ t = (s.busWrite off x).advance) ∨
    (∃ n, t = s.jump n) ∨
    (st = .powerReset ∧ t = s.resetCore.advance) := by
  cases st with
  | rd bytes off =>
    simp only [runStmt] at h
    split at h
    · cases h
    · next ha =>
      obtain ⟨rfl, -⟩ := accessRefusal_eq_none.mp ha
      cases h
      exact .inl ⟨off, rfl, rfl⟩
  | wr bytes off x =>
    simp only [runStmt] at h
    split at h
    · cases h
    · next ha =>
      obtain ⟨rfl, -⟩ := accessRefusal_eq_none.mp ha
      cases h
      exact .inr (.inl ⟨off, x, rfl, rfl⟩)
  | bnz reg lo width target | bz reg lo width target =>
    cases h
    split
    · exact .inr (.inr (.inl ⟨_, rfl⟩))
    · exact .inr (.inr (.inl ⟨_, rfl⟩))
  | jmp target => cases h; exact .inr (.inr (.inl ⟨target, rfl⟩))
  | halt => cases h; exact .inr (.inr (.inl ⟨s.pos, rfl⟩))
  | powerReset => cases h; exact .inr (.inr (.inr ⟨rfl, rfl⟩))

/-! ## The invariant -/

/-- The invariant speaks of ERR, ERRCODE and the host variables alone. -/
theorem State.Inv.congr {s t : State} (h : s.Inv) (herr : t.err = s.err) (hcode : t.errCode = s.errCode)
    (hvars : t.vars = s.vars) : t.Inv :=
  ⟨by rw [herr, hcode, h.err], by rw [hcode]; exact h.code, by rw [hvars]; exact h.vars⟩

/-- A completion with one of R320's codes keeps the invariant (R324). -/
theorem State.Inv.completed {s t : State} {op : Byte} {code : BitVec 4} (h : s.Inv) (hc : Completed op code s t)
    (hle : code.toNat ≤ 5) : t.Inv :=
  ⟨by rw [hc.err, hc.errCode], by rw [hc.errCode]; exact hle, by rw [hc.vars]; exact h.vars⟩

/-- A reset of the core keeps the invariant: it leaves the host's variables (R361; assumption log 15). -/
theorem State.Inv.resetCore {s : State} (h : s.Inv) : s.resetCore.Inv :=
  ⟨rfl, Nat.zero_le 5, h.vars⟩

/-- A read keeps the host variables in canonical form (assumption log 18). -/
theorem State.Inv.keepRead {s : State} (h : s.Inv) (off : Offset) (x : Word) : (s.keepRead off x).Inv :=
  ⟨h.err, h.code, varsSet_wf h.vars⟩

/-- A host write resets the core (R361), or it leaves ERR and ERRCODE, which only a completion writes, and the host (R35-R38). -/
theorem busWrite_cases (s : State) (off : Offset) (x : Word) :
    s.busWrite off x = s.resetCore ∨
      ((s.busWrite off x).err = s.err ∧ (s.busWrite off x).errCode = s.errCode ∧ (s.busWrite off x).prog = s.prog ∧
        (s.busWrite off x).pos = s.pos ∧ (s.busWrite off x).vars = s.vars) := by
  unfold State.busWrite
  cases regAt off with
  | ctrl =>
    simp only [State.writeReg, State.writeCtrl]
    split
    · exact .inl rfl
    · exact .inr ⟨rfl, rfl, rfl, rfl, rfl⟩
  | cmd | v i | p i j =>
    simp only [State.writeReg]
    split
    · exact .inr ⟨rfl, rfl, rfl, rfl, rfl⟩
    · exact .inr ⟨rfl, rfl, rfl, rfl, rfl⟩
  | id | status | sres | gridLo | gridHi | unmapped => exact .inr ⟨rfl, rfl, rfl, rfl, rfl⟩

/-- A host write leaves the host's position. -/
theorem busWrite_pos (s : State) (off : Offset) (x : Word) : (s.busWrite off x).pos = s.pos := by
  rcases busWrite_cases s off x with h | ⟨-, -, -, hpos, -⟩
  · rw [h]; rfl
  · exact hpos

/-- A host write keeps the invariant. -/
theorem State.Inv.busWrite {s : State} (h : s.Inv) (off : Offset) (x : Word) : (s.busWrite off x).Inv := by
  rcases busWrite_cases s off x with hr | ⟨herr, hcode, -, -, hvars⟩
  · rw [hr]; exact h.resetCore
  · exact h.congr herr hcode hvars

/-- A host statement keeps the invariant. -/
theorem State.Inv.runStmt {s t : State} {st : HostStmt} (h : s.Inv) (hr : runStmt st s = .next t) : t.Inv := by
  rcases runStmt_cases hr with ⟨off, -, rfl⟩ | ⟨off, x, -, rfl⟩ | ⟨n, rfl⟩ | ⟨-, rfl⟩
  · exact (h.keepRead off _).congr rfl rfl rfl
  · exact (h.busWrite off x).congr rfl rfl rfl
  · exact h.congr rfl rfl rfl
  · exact h.resetCore.congr rfl rfl rfl

/-- With a command pending, a host statement either discards it (a reset) or leaves it and everything a completion reads or
writes (R38, R41). -/
theorem runStmt_busy {st : HostStmt} {s t : State} (hb : s.busy = true) (h : runStmt st s = .next t) :
    t.pend = none ∨
      (t.pend = s.pend ∧ DataKept s t ∧ t.err = s.err ∧ t.errCode = s.errCode ∧ t.lastOp = s.lastOp) := by
  rcases runStmt_cases h with ⟨off, -, rfl⟩ | ⟨off, x, -, rfl⟩ | ⟨n, rfl⟩ | ⟨-, rfl⟩
  · exact .inr ⟨rfl, ⟨rfl, rfl, rfl, rfl⟩, rfl, rfl, rfl⟩
  · rcases busWrite_busy hb off x with ⟨-, -, e⟩ | ⟨⟨hv, hp, hsres, hgrid⟩, hpend, herr, hcode, hlast, -, -, -, -⟩
    · exact .inl (by rw [e]; rfl)
    · exact .inr ⟨hpend, ⟨hv, hp, hsres, hgrid⟩, herr, hcode, hlast⟩
  · exact .inr ⟨rfl, ⟨rfl, rfl, rfl, rfl⟩, rfl, rfl, rfl⟩
  · exact .inl rfl

/-! ## The register window -/

/-- R72's offset of P[i][j], as a sum. -/
theorem pOffset_eq (i : Fin 4) (j : Fin 24) : BitVec.ofNat 12 (0x100 + 0x80 * i.val + 4 * j.val) = pOffset i j := by
  simp only [pOffset, Nat.shiftLeft_eq]
  congr 1
  omega

/-- R71's offset of Vi. -/
theorem vOffset_eq (i : Fin 8) : BitVec.ofNat 12 (0x020 + 4 * i.val) = vOffset i := rfl

/-- A CTRL write with SRST = 1 is the reset (R361). -/
theorem busWrite_ctrl_reset {x : Word} (h : x.getLsbD 0 = true) (s : State) : s.busWrite 0x004#12 x = s.resetCore :=
  if_pos h

/-- A CTRL write with SRST = 0 sets IE (R35). -/
theorem busWrite_ctrl_ie {x : Word} (h : x.getLsbD 0 = false) (s : State) :
    s.busWrite 0x004#12 x = { s with ie := x.getLsbD 1 } :=
  if_neg (by rw [h]; decide)

/-- A STATUS write is R36's. -/
@[simp] theorem busWrite_status (s : State) (x : Word) : s.busWrite 0x008#12 x = s.writeStatus x := rfl

/-- A CMD write to an idle core is accepted (R37). -/
theorem busWrite_cmd_idle {s : State} (h : s.pend = none) (x : Word) : s.busWrite 0x00C#12 x = s.accept x :=
  if_neg (by simp [h])

/-- A V write to an idle core stores 24 bits (R32). -/
theorem busWrite_v_idle {s : State} (h : s.pend = none) (i : Fin 8) (x : Word) :
    s.busWrite (vOffset i) x = s.setV i (x.setWidth 24) := by
  simp [State.busWrite, State.writeReg, h]

/-- A P write to an idle core stores 5 bits in one entry (R39). -/
theorem busWrite_p_idle {s : State} (h : s.pend = none) (i : Fin 4) (j : Fin 24) (x : Word) :
    s.busWrite (pOffset i j) x = s.setP i (s.p[i].set j (x.setWidth 5)) := by
  simp [State.busWrite, State.writeReg, h]

/-- The registers whose write a busy core blocks (R38): CMD, V0-V7 and the entries of P0-P3. -/
theorem busWrite_blocked {s : State} (h : s.pend.isSome = true) {off : Offset} (x : Word)
    (hr : regAt off = .cmd ∨ (∃ i, regAt off = .v i) ∨ ∃ i j, regAt off = .p i j) :
    s.busWrite off x = { s with ovr := true } := by
  rcases hr with hr | ⟨i, hr⟩ | ⟨i, j, hr⟩ <;> simp [State.busWrite, State.writeReg, State.block, hr, h]

/-- A V register as read: its 24 bits, 0 above (R32). -/
@[simp] theorem busRead_v (s : State) (i : Fin 8) : s.busRead (vOffset i) = s.v[i].setWidth 32 := by
  simp [State.busRead, State.readReg]

/-- A P entry as read: its 5 bits, 0 above (R39). -/
@[simp] theorem busRead_p (s : State) (i : Fin 4) (j : Fin 24) : s.busRead (pOffset i j) = ((s.p[i])[j]).setWidth 32 := by
  simp [State.busRead, State.readReg]

@[simp] theorem busRead_id (s : State) : s.busRead 0x000#12 = idValue := rfl
@[simp] theorem busRead_ctrl (s : State) : s.busRead 0x004#12 = s.ctrlWord := rfl
@[simp] theorem busRead_status (s : State) : s.busRead 0x008#12 = s.statusWord := rfl
@[simp] theorem busRead_cmd (s : State) : s.busRead 0x00C#12 = 0#32 := rfl
@[simp] theorem busRead_sres (s : State) : s.busRead 0x010#12 = s.sres := rfl
@[simp] theorem busRead_gridLo (s : State) : s.busRead 0x014#12 = s.gridLo := rfl
@[simp] theorem busRead_gridHi (s : State) : s.busRead 0x018#12 = s.gridHi := rfl

/-- A read sees the committed state, not the delay counter (R78). -/
@[simp] theorem busRead_tick (s : State) (off : Offset) : s.tick.busRead off = s.busRead off := by
  unfold State.busRead
  cases regAt off with
  | status => simp [State.readReg, State.statusWord]
  | id | ctrl | cmd | sres | gridLo | gridHi | v i | p i j | unmapped => rfl

/-- A value read with zeros above gives back its low bits, and zeros. -/
theorem extract_setWidth_low {n m : Nat} (h : n ≤ m) (x : BitVec n) : (x.setWidth m).extractLsb' 0 n = x := by
  rw [BitVec.extractLsb'_setWidth_of_le (by omega), BitVec.extractLsb'_eq_self]
theorem extract_setWidth_high {n m : Nat} (k : Nat) (x : BitVec n) : (x.setWidth m).extractLsb' n k = 0#k := by
  ext i hi
  simp

/-- The flags of STATUS: BUSY, DONE, OVR and ERR at bits 0 to 3 (R36). -/
theorem statusWord_flags (s : State) : s.statusWord.getLsbD 0 = s.pend.isSome ∧ s.statusWord.getLsbD 1 = s.done ∧
    s.statusWord.getLsbD 2 = s.ovr ∧ s.statusWord.getLsbD 3 = s.err := by
  simp only [State.statusWord, BitVec.getLsbD_append]
  simp

/-- STATUS above its flags: ERRCODE at bits 7:4, LASTOP at bits 15:8, then zeros (R36). -/
theorem getLsbD_statusWord_add_four (s : State) (k : Nat) :
    s.statusWord.getLsbD (4 + k) = if k < 4 then s.errCode.getLsbD k else s.lastOp.getLsbD (k - 4) := by
  simp only [State.statusWord, BitVec.getLsbD_append]
  have h0 : ¬ 4 + k < 1 := by omega
  by_cases hk : k < 4
  · simp [hk, h0]
  · simpa [hk, h0] using BitVec.lt_of_getLsbD

/-- The entry of P that is set, and every other one (R39). -/
theorem setP_entry_same (s : State) (i : Fin 4) (j : Fin 24) (e : BitVec 5) :
    ((s.setP i (s.p[i].set j e)).p[i])[j] = e := by
  simp
theorem setP_entry_other {i i' : Fin 4} {j j' : Fin 24} (h : (i', j') ≠ (i, j)) (s : State) (e : BitVec 5) :
    ((s.setP i (s.p[i].set j e)).p[i'])[j'] = (s.p[i'])[j'] := by
  by_cases hi : i' = i
  · subst hi
    have hj : j.val ≠ j'.val := fun hj => h (by rw [Fin.ext hj])
    simp [hj]
  · have hi : i.val ≠ i'.val := fun e => hi (Fin.ext e.symm)
    simp [hi]

/-- Bit k of packed cells is bit k % 2 of the code of cell k / 2 (R40). -/
theorem getLsbD_packCells (cs : List Cell) (k : Nat) :
    (packCells cs).getLsbD k = (decide (k < 32) && (cs[k / 2]?).any fun c => c.code.getLsbD (k % 2)) := by
  induction cs generalizing k with
  | nil => simp [packCells]
  | cons c cs ih =>
    simp only [packCells, BitVec.getLsbD_or, BitVec.getLsbD_shiftLeft, BitVec.getLsbD_setWidth, ih]
    by_cases hk : k < 2
    · simp [hk, Nat.div_eq_of_lt hk, Nat.mod_eq_of_lt hk]
    · obtain ⟨m, rfl⟩ : ∃ m, k = m + 2 := ⟨k - 2, by omega⟩
      have hlt : (decide (m + 2 < 32) && decide (m < 32)) = decide (m + 2 < 32) := by
        rw [← Bool.decide_and]; congr 1; exact propext (by omega)
      simp [Nat.add_div_right, ← Bool.and_assoc, hlt]

/-- The field of cell j in packed cells is its code (R40). -/
theorem extract_packCells {cs : List Cell} {j : Nat} (hj : j < 16) (h : j < cs.length) :
    (packCells cs).extractLsb' (2 * j) 2 = cs[j].code := by
  ext i hi
  have hdiv : (2 * j + i) / 2 = j := by omega
  have hmod : (2 * j + i) % 2 = i := by omega
  have hlt : 2 * j + i < 32 := by omega
  rw [BitVec.getElem_extractLsb' hi, getLsbD_packCells, hdiv, hmod, List.getElem?_eq_getElem h]
  simp [hlt, BitVec.getLsbD_eq_getElem hi]

/-! ## Reset -/

/-- The data registers after reset (R46). -/
theorem reset_v (i : Fin 8) : State.reset.v[i] = 0#24 := by simp [State.reset]
theorem reset_p (i : Fin 4) (j : Fin 24) : (State.reset.p[i])[j] = BitVec.ofNat 5 j.val := by simp [State.reset, idPerm]
theorem reset_grid (i : Fin 24) : State.reset.grid[i] = .unselected := by simp [State.reset]

/-- A reset of the core, wherever it leaves the host, has R46's values, and the host's program and variables stay. -/
theorem resetCore_jump_values (s : State) (n : Nat) {t : State} (h : t = s.resetCore.jump n) :
    (∀ i : Fin 8, t.v[i] = 0#24) ∧ (∀ (i : Fin 4) (j : Fin 24), (t.p[i])[j] = BitVec.ofNat 5 j.val) ∧ t.sres = 0#32 ∧
    (∀ i : Fin 24, t.grid[i] = .unselected) ∧ t.ie = false ∧ t.busRead 0x008#12 = 0#32 ∧ t.pend = none ∧
    t.irq = false ∧ t.prog = s.prog ∧ t.vars = s.vars := by
  subst h
  exact ⟨reset_v, reset_p, rfl, reset_grid, rfl, (by decide : State.reset.statusWord = 0#32), rfl, rfl, rfl, rfl⟩

/-! ## The host's statements -/

/-- A read at an aligned offset (R78, R120). -/
theorem runStmt_rd {off : Offset} (h : off.toNat % 4 = 0) (s : State) :
    runStmt (.rd 4 off) s = .next (s.keepRead off (s.busRead off)).advance := by
  simp only [runStmt, accessRefusal_eq_none.mpr ⟨rfl, h⟩]

/-- A write at an aligned offset (R120). -/
theorem runStmt_wr {off : Offset} (h : off.toNat % 4 = 0) (x : Word) (s : State) :
    runStmt (.wr 4 off x) s = .next (s.busWrite off x).advance := by
  simp only [runStmt, accessRefusal_eq_none.mpr ⟨rfl, h⟩]

/-- The branches go by the field of the last value read (R120). -/
theorem runStmt_bnz (reg : Offset) (lo width target : Nat) (s : State) :
    runStmt (.bnz reg lo width target) s =
      .next (s.jump (if (s.hostVar reg).extractLsb' lo width = 0#width then s.pos + 1 else target)) := by
  by_cases h : (s.hostVar reg).extractLsb' lo width = 0#width
  · simp [runStmt, State.fieldSet, h]; rfl
  · simp [runStmt, State.fieldSet, h]
theorem runStmt_bz (reg : Offset) (lo width target : Nat) (s : State) :
    runStmt (.bz reg lo width target) s =
      .next (s.jump (if (s.hostVar reg).extractLsb' lo width = 0#width then target else s.pos + 1)) := by
  by_cases h : (s.hostVar reg).extractLsb' lo width = 0#width
  · simp [runStmt, State.fieldSet, h]
  · simp [runStmt, State.fieldSet, h]; rfl

/-- The host variable just read is the value read; the others stay (R120). -/
theorem hostVar_keepRead_same (s : State) (off : Offset) (x : Word) : (s.keepRead off x).hostVar off = x := by
  simp [State.hostVar]
theorem hostVar_keepRead_other {o off : Offset} (h : o ≠ off) (s : State) (x : Word) :
    (s.keepRead off x).hostVar o = s.hostVar o := by
  have hne : o.toNat ≠ off.toNat := fun e => h (BitVec.eq_of_toNat_eq e)
  simp [State.hostVar, varsGet_varsSet_other hne]

/-- The two ways the host's turn comes (R81): u is s after the delay counter moved, and the step is the host's statement on u. -/
theorem host_turn {s u : State}
    (h : (s.pend = none ∧ u = s) ∨
      ∃ w n, s.pend = some { word := w, delay := n + 1 } ∧ u = { s with pend := some { word := w, delay := n } }) :
    u = s.tick ∧ ∀ st, s.nextStmt = some st → st ≠ .halt → step s = runStmt st s.tick := by
  rcases h with ⟨hp, rfl⟩ | ⟨w, n, hp, rfl⟩
  · exact ⟨(tick_of_idle hp).symm, fun st hn _ => step_eq_runStmt (not_due_of_idle hp) hn⟩
  · exact ⟨(tick_of_delay hp).symm, fun st hn hst => step_eq_runStmt (not_due_of_delay hp hn hst) hn⟩

/-! ## What a command writes -/

/-- What command i makes of s before the completion fields are written (R13): the assignments its rule allows, of any
values. -/
def Assigns (s u : State) : Instr → Prop
  | .nop => u = s
  | .hexl _ | .hexv _ | .hexs _ | .syn _ | .iscw _ | .octf _ | .ptest _ => ∃ x, u = s.setSres x
  | .enc d _ | .octr d _ | .gmask d _ | .papv d _ _ => ∃ x, u = s.setV d x
  | .dec d _ | .cmpl d _ => ∃ x y, u = (s.setV d x).setSres y
  | .sel _ | .desel _ | .grst | .gapply _ | .gperm _ => ∃ g, u = s.setGrid g
  | .gcmpl d | .gdec d => ∃ x y g, u = ((s.setV d x).setSres y).setGrid g
  | .pgen d _ | .pid d | .pcomp d _ _ | .pinv d _ => ∃ q, u = s.setP d q

/-- Every command is a completion (R370) of pseudocode that makes the assignments of its rule where it raises nothing. -/
theorem exec_eq_complete_assigns (i : Instr) (s : State) :
    ∃ r, exec i s = complete i.opcode r s ∧ ∀ u, r = .ok u → Assigns s u i := by
  cases i
  all_goals
    simp only [exec, execNop, execHexl, execHexv, execHexs, execEnc, execSyn, execIscw, execDec, execCmpl, execOctf,
      execOctr, execSel, execDesel, execGrst, execGcmpl, execGdec, execGmask, execGapply, execGperm, execPgen, execPid,
      execPcomp, execPinv, execPapv, execPtest]
    refine ⟨_, rfl, fun u hu => ?_⟩
  case nop => cases hu; rfl
  case hexv | hexs | syn | iscw | octf | ptest | enc | grst | pid => cases hu; exact ⟨_, rfl⟩
  case dec => cases hu; exact ⟨_, _, rfl⟩
  case gdec => cases hu; exact ⟨_, _, _, rfl⟩
  case hexl | octr | gmask | sel | desel | gapply | gperm | pgen | pinv | papv =>
    split at hu
    · cases hu
    · cases hu; exact ⟨_, rfl⟩
  case cmpl =>
    split at hu
    · cases hu
    · cases hu; exact ⟨_, _, rfl⟩
  case gcmpl =>
    split at hu
    · cases hu
    · cases hu; exact ⟨_, _, _, rfl⟩
  case pcomp =>
    split at hu
    · cases hu; exact ⟨_, rfl⟩
    · cases hu
    · cases hu

/-- Every command makes the assignments of its rule, or raises and makes none (R13, R322). -/
theorem exec_assigns {i : Instr} {s t : State} (h : exec i s = .next t) :
    (∃ u, Assigns s u i ∧ t = u.finish i.opcode 0#4) ∨ ∃ e, t = s.raise i.opcode e := by
  obtain ⟨r, hr, hok⟩ := exec_eq_complete_assigns i s
  rcases complete_cases (hr.symm.trans h) with ⟨u, hu, ht⟩ | ⟨e, -, ht⟩
  · exact .inl ⟨u, hok u hu, ht⟩
  · exact .inr ⟨e, ht⟩

/-- A write to V[d] is read back from V[d] and leaves the other vector registers (R12). -/
theorem getElem_setV_same (s : State) (d : VReg) (x : Vec) : (s.setV d x).v[d] = x := by
  simp
theorem otherV_setV (s : State) (d : VReg) (x : Vec) : OtherV d s (s.setV d x) := fun r hr => by
  have hne : d.val ≠ r.val := fun e => hr (Fin.ext e.symm)
  simp [hne]

/-- A command that answers an error raises it (R322). -/
theorem raises_of_error {i : Instr} {s : State} {e : CmdError} (h : exec i s = complete i.opcode (.error e) s) :
    Raises i e.code s :=
  ⟨_, h, raise_completed s i.opcode e⟩

/-- Point i is in the set of the cells with f when f holds of cell i. -/
theorem getLsbD_cellsWhere (f : Cell → Bool) (g : Vector Cell 24) (i : Point) :
    (cellsWhere f g).getLsbD i = f g[i] := by
  simp only [cellsWhere, getLsbD_ofBits]
  simp

/-- The state codes 0-3 are the codes of the cells (R40, R246). -/
theorem code_beq_ofNat {k : Nat} (hk : k ≤ 3) (c : Cell) : (c.code == BitVec.ofNat 2 k) = decide (c.code.toNat = k) := by
  rw [Bool.eq_iff_iff]
  simp [← BitVec.toNat_inj, Nat.mod_eq_of_lt (show k < 4 by omega)]

/-! ## The obligations -/

/-- Settles O28, by the four ways a step can go. -/
theorem stepKeepsTheInvariant : Obligations.StepKeepsTheInvariant := by
  unfold Obligations.StepKeepsTheInvariant
  intro s t h hs
  rcases step_cases s with ⟨-, -, e⟩ | ⟨st, -, -, e⟩ | ⟨q, hq, hd, -⟩ | ⟨q, st, -, -, -, -, e⟩
  · obtain rfl : s = t := by simpa [e] using hs
    exact h
  · exact h.runStmt (e.symm.trans hs)
  · obtain ⟨code, hle, hc⟩ := completed_of_due ⟨hq, hd⟩ hs
    exact h.completed hc hle
  · exact (h.congr rfl rfl rfl : s.tick.Inv).runStmt (e.symm.trans hs)

/-- Settles O12: a completion and a reset leave no command pending, and `runStmt_busy` is said of all else. -/
theorem dataStaysWhileCommandIsPending : Obligations.DataStaysWhileCommandIsPending := by
  unfold Obligations.DataStaysWhileCommandIsPending
  intro s t q r hq hs hr
  rcases step_cases s with ⟨h, -, -⟩ | ⟨st, h, -, -⟩ | ⟨q', hq', hd, -⟩ | ⟨q', st, -, -, -, -, e⟩
  · simp [h] at hq
  · simp [h] at hq
  · obtain ⟨code, -, hc⟩ := completed_of_due ⟨hq', hd⟩ hs
    simp [hc.pend] at hr
  · rcases runStmt_busy (s := s.tick) (by simp [hq]) (e.symm.trans hs) with h | ⟨hp, hdata, herr, hcode, hlast⟩
    · simp [h] at hr
    · have hr : s.tick.pend = some r := hp.symm.trans hr
      obtain rfl : { q with delay := q.delay - 1 } = r := by simpa [hq] using hr
      exact ⟨rfl, ⟨hdata.v, hdata.p, hdata.sres, hdata.grid⟩, herr, hcode, hlast⟩

/-- Settles O15: either way the state is the reset of the core, up to the host's position. -/
theorem resetFromAnyState : Obligations.ResetFromAnyState := by
  unfold Obligations.ResetFromAnyState
  rintro s t x (⟨hx, rfl⟩ | ⟨hd, hn, hs⟩)
  · exact resetCore_jump_values s s.pos (busWrite_ctrl_reset hx s)
  · rw [step_eq_runStmt hd hn] at hs
    cases hs
    exact resetCore_jump_values s (s.pos + 1) rfl

/-- Settles O20: a write to an idle core sets the one entry, and a busy core blocks it. -/
theorem permutationEntryAccess : Obligations.PermutationEntryAccess := by
  unfold Obligations.PermutationEntryAccess
  intro s i j x
  simp only [pOffset_eq, busRead_p]
  refine ⟨extract_setWidth_low (by decide) _, extract_setWidth_high 27 _, fun h => ?_, fun h => ?_⟩
  · refine ⟨_, busWrite_p_idle h i j x, ?_, fun i' j' hne => ?_, rfl⟩
    · rw [setP_entry_same, BitVec.setWidth_eq_extractLsb' (by decide)]
    · exact setP_entry_other hne s _
  · exact busWrite_blocked h x (.inr (.inr ⟨i, j, regAt_pOffset i j⟩))

/-- Settles O22: the grid words are the packed codes of cells 0-15 and 16-23. -/
theorem readOnlyRegisters : Obligations.ReadOnlyRegisters := by
  unfold Obligations.ReadOnlyRegisters
  intro s
  refine ⟨busRead_id s, busRead_sres s, fun j h => ?_, fun j h => ?_, ?_, rfl, rfl, rfl, rfl⟩
  · rw [busRead_gridLo, State.gridLo, extract_packCells h (by simp; omega)]
    simp
  · rw [busRead_gridHi, State.gridHi, extract_packCells (by omega) (by simp; omega)]
    simp
  · ext i hi
    have hnone : (s.grid.toList.drop 16)[(16 + i) / 2]? = none := by simp; omega
    rw [BitVec.getElem_extractLsb' hi, busRead_gridHi, State.gridHi, getLsbD_packCells, hnone]
    simp

/-- Settles O23, statement by statement on the state after the delay counter moved. -/
theorem hostAccessSteps : Obligations.HostAccessSteps := by
  unfold Obligations.HostAccessSteps
  intro s u hu
  obtain ⟨rfl, hstep⟩ := host_turn hu
  refine ⟨fun off ha hn => ?_, fun off x ha hn => ?_, fun reg lo width target hn => ?_,
    fun reg lo width target hn => ?_, fun target hn => ?_⟩
  · refine ⟨_, (hstep _ hn nofun).trans (runStmt_rd ha _), ?_, fun o ho => ?_, rfl⟩
    · exact (hostVar_keepRead_same s.tick off _).trans (busRead_tick s off)
    · exact hostVar_keepRead_other ho s.tick _
  · rw [hstep _ hn nofun, runStmt_wr ha, State.advance, busWrite_pos]
    rfl
  · rw [hstep _ hn nofun, runStmt_bnz]
    rfl
  · rw [hstep _ hn nofun, runStmt_bz]
    rfl
  · rw [hstep _ hn nofun]
    rfl

/-- Settles O29: the opcodes of the commands whose assignments name the register. -/
theorem onlyTheseCommandsWrite : Obligations.OnlyTheseCommandsWrite := by
  unfold Obligations.OnlyTheseCommandsWrite
  intro i s t h
  rcases exec_assigns h with ⟨u, hu, rfl⟩ | ⟨e, rfl⟩
  · cases i
    case nop => obtain rfl := hu; simp
    case hexl | hexv | hexs | syn | iscw | octf | ptest => obtain ⟨x, rfl⟩ := hu; simp [Instr.opcode]
    case enc | octr | gmask | papv => obtain ⟨x, rfl⟩ := hu; simp [Instr.opcode]
    case dec | cmpl => obtain ⟨x, y, rfl⟩ := hu; simp [Instr.opcode]
    case sel | desel | grst | gapply | gperm => obtain ⟨g, rfl⟩ := hu; simp [Instr.opcode]
    case gcmpl | gdec => obtain ⟨x, y, g, rfl⟩ := hu; simp [Instr.opcode]
    case pgen | pid | pcomp | pinv => obtain ⟨q, rfl⟩ := hu; simp [Instr.opcode]
  · simp

/-- Settles O50: the cells with the code that is asked for, and the raise above code 3. -/
theorem gmaskReadsTheGrid : Obligations.GmaskReadsTheGrid := by
  unfold Obligations.GmaskReadsTheGrid
  intro s d k
  constructor
  · intro hk
    have hexec : exec (.gmask d k) s = complete 0x35#8
        (.ok (s.setV d (cellsWhere (fun c => c.code == BitVec.ofNat 2 k) s.grid))) s := by
      simp only [exec, execGmask, if_neg (show ¬ k > 3 by omega)]
      rfl
    refine ⟨_, hexec, ((SameControl.refl s).setV d _).completed _, otherV_setV s d _, rfl, rfl, rfl, fun i => ?_⟩
    change (s.setV d _).v[d].getLsbD i = _
    rw [getElem_setV_same, getLsbD_cellsWhere, code_beq_ofNat hk]
  · intro hk
    exact raises_of_error (e := .invalidPattern) (by simp only [exec, execGmask, if_pos (show k > 3 from hk)])

/-- Settles O7: neither an idle core nor a pending command with delay left has a completion due. -/
theorem stepRunsTheHostOtherwise : Obligations.StepRunsTheHostOtherwise := by
  unfold Obligations.StepRunsTheHostOtherwise
  intro s
  refine ⟨fun hp hn => ?_, fun st hp hn => ?_, fun st w n hp hn hst => ?_⟩
  · rw [step_of_not_due (not_due_of_idle hp), tick_of_idle hp, hostStep_of_none hn]
  · rw [step_eq_runStmt (not_due_of_idle hp) hn, tick_of_idle hp]
  · rw [step_eq_runStmt (not_due_of_delay hp hn hst) hn, tick_of_delay hp]

/-- Settles O14: the register files by the reset values of their entries, the rest by evaluation. -/
theorem resetValues : Obligations.ResetValues := by
  unfold Obligations.ResetValues
  refine ⟨fun i => ?_, fun i j => ?_, rfl, by decide, by decide, reset_grid, by decide, by decide, rfl, rfl, rfl⟩
  · rw [busRead_v, reset_v, BitVec.setWidth_zero]
  · rw [busRead_p, reset_p, BitVec.setWidth_ofNat_of_le_of_lt (by decide) (by omega)]

/-- Settles O16: the read by the two values of IE, the write by its rule. -/
theorem ctrlAccess : Obligations.CtrlAccess := by
  unfold Obligations.CtrlAccess
  intro s x
  refine ⟨?_, fun h => busWrite_ctrl_ie h s⟩
  cases h : s.ie <;> simp [State.ctrlWord, h]

/-- Settles O17: the fields from STATUS bit by bit. -/
theorem statusAccess : Obligations.StatusAccess := by
  unfold Obligations.StatusAccess
  intro s x
  simp only [busRead_status]
  obtain ⟨hbusy, hdone, hovr, herr⟩ := statusWord_flags s
  refine ⟨hbusy, hdone, hovr, herr, ?_, ?_, ?_, ?_⟩
  · ext i hi
    rw [BitVec.getElem_extractLsb' hi, getLsbD_statusWord_add_four, if_pos hi, BitVec.getLsbD_eq_getElem hi]
  · ext i hi
    rw [BitVec.getElem_extractLsb' hi, show 8 + i = 4 + (4 + i) by omega, getLsbD_statusWord_add_four,
      if_neg (by omega), Nat.add_sub_cancel_left, BitVec.getLsbD_eq_getElem hi]
  · ext i hi
    rw [BitVec.getElem_extractLsb' hi, show 16 + i = 4 + (12 + i) by omega, getLsbD_statusWord_add_four,
      if_neg (by omega), BitVec.getLsbD_of_ge _ _ (by omega), BitVec.getElem_zero]
  · rw [busWrite_status, State.writeStatus]
    cases x.getLsbD 1 <;> cases x.getLsbD 2 <;> simp

/-- Settles O18 by the rules of an accepted and of a blocked write. -/
theorem cmdAccess : Obligations.CmdAccess := by
  unfold Obligations.CmdAccess
  intro s x
  exact ⟨busRead_cmd s, fun h => ⟨_, busWrite_cmd_idle h x⟩, fun h => busWrite_blocked h x (.inl regAt_cmd)⟩

/-- Settles O19 by the rules of a V read, an idle write and a blocked write. -/
theorem vectorRegisterAccess : Obligations.VectorRegisterAccess := by
  unfold Obligations.VectorRegisterAccess
  intro s i x
  simp only [vOffset_eq, busRead_v]
  refine ⟨extract_setWidth_low (by decide) _, extract_setWidth_high 8 _, fun h => ?_, fun h => ?_⟩
  · rw [busWrite_v_idle h, BitVec.setWidth_eq_extractLsb' (by decide)]
    rfl
  · exact busWrite_blocked h x (.inr (.inl ⟨i, regAt_vOffset i⟩))

/-- Settles O25: DONE and IE after a completion, a STATUS write and a CTRL write. -/
theorem interruptLine : Obligations.InterruptLine := by
  unfold Obligations.InterruptLine
  intro s t q x
  refine ⟨rfl, fun hd hs => ?_, fun h => ?_, fun h0 h1 => ?_⟩
  · obtain ⟨code, -, hc⟩ := completed_of_due hd hs
    rw [irq_eq, hc.ie, hc.done, Bool.and_true]
  · have hdone : (s.busWrite 0x008#12 x).done = false := by rw [busWrite_status, writeStatus_done, h]; simp
    exact ⟨by rw [irq_eq, hdone, Bool.and_false], hdone⟩
  · rw [busWrite_ctrl_ie h0]
    exact ⟨by rw [irq_eq, h1, Bool.false_and], rfl⟩

/-- Settles O27 clause by clause. -/
theorem invariantAtReset : Obligations.InvariantAtReset := ⟨rfl, by decide, rfl⟩

end Sys2Proof.Machine

/-! PROOFS. The family of 20_memory.md: the register map read from a register to its offset (R71-R73), the accesses that are no
step of the interface (R75) and the host programs that ask for none, and the octad table (R90). -/

namespace Sys2Proof.Machine

/-! ## The register map, from a register to its offset -/

/-- The one offset of a register (R71, R72); `unmapped` is no register and has none. -/
def Reg.offset? : Reg → Option Offset
  | .id       => some 0x000#12
  | .ctrl     => some 0x004#12
  | .status   => some 0x008#12
  | .cmd      => some 0x00C#12
  | .sres     => some 0x010#12
  | .gridLo   => some 0x014#12
  | .gridHi   => some 0x018#12
  | .v i      => some (vOffset i)
  | .p i j    => some (pOffset i j)
  | .unmapped => none

/-- The registers below V0 (R71). -/
theorem offset?_regAtNat_low :
    ∀ n < 0x020, regAtNat n ≠ .unmapped → (regAtNat n).offset? = some (BitVec.ofNat 12 n) := by decide

/-- Every register the map names at n stands at n (R71, R72). -/
theorem offset?_regAtNat {n : Nat} (h : regAtNat n ≠ .unmapped) :
    (regAtNat n).offset? = some (BitVec.ofNat 12 n) := by
  by_cases hlow : n < 0x020
  · exact offset?_regAtNat_low n hlow h
  · simp only [regAtNat, if_neg hlow] at h ⊢
    split_ifs at h ⊢ with halign hv hgap hp hj
    · exact absurd rfl h
    · have hn : 0x020 + 4 * ((n - 0x020) / 4 % 8) = n := by omega
      exact congrArg (fun m => some (BitVec.ofNat 12 m)) hn
    · exact absurd rfl h
    · have hn : 0x100 + 0x80 * ((n - 0x100) / 0x80 % 4) + 4 * (n % 0x80 / 4) = n := by omega
      rw [Reg.offset?, ← pOffset_eq]
      exact congrArg (fun m => some (BitVec.ofNat 12 m)) hn
    · exact absurd rfl h
    · exact absurd rfl h

/-- A register stands at its offset alone (R71, R72). -/
theorem eq_offset_of_regAt {off o : Offset} {r : Reg} (hr : regAt off = r) (ho : r.offset? = some o) : off = o := by
  subst hr
  have hmapped : regAtNat off.toNat ≠ .unmapped := fun h => by simp [regAt, h, Reg.offset?] at ho
  have h := (offset?_regAtNat hmapped).symm.trans ho
  simpa using h

/-! ## Accesses outside the interface, and programs without them -/

/-- An access R75 gives no meaning is refused, its width named first (assumption log 10). -/
theorem accessRefusal_eq_some {bytes : Nat} {off : Offset} (h : bytes ≠ 4 ∨ off.toNat % 4 ≠ 0) :
    accessRefusal bytes off = some (if bytes ≠ 4 then .accessWidth bytes else .misaligned off) := by
  unfold accessRefusal
  split
  · rfl
  · next hwidth => exact if_pos (h.resolve_left hwidth)

/-- A read or write that R75 gives no meaning is refused. -/
theorem runStmt_rd_refused {bytes : Nat} {off : Offset} {r : Refusal} (h : accessRefusal bytes off = some r) (s : State) :
    runStmt (.rd bytes off) s = .refused r := by
  simp only [runStmt, h]
theorem runStmt_wr_refused {bytes : Nat} {off : Offset} {r : Refusal} (h : accessRefusal bytes off = some r) (x : Word)
    (s : State) : runStmt (.wr bytes off x) s = .refused r := by
  simp only [runStmt, h]

/-- A host that stands at a statement other than `halt` has no completion due before it, unless the pending command's delay is
0 (R81, R372). -/
theorem not_due_of_delay_ne_zero {s : State} {st : HostStmt} (hdelay : ∀ q, s.pend = some q → q.delay ≠ 0)
    (hn : s.nextStmt = some st) (hst : st ≠ .halt) (q : Pending) : ¬ s.due q := by
  rintro ⟨hq, hzero | hdone⟩
  · exact hdelay q hq hzero
  · simp [hostDone_eq_false hn hst] at hdone

/-- A clean statement goes on (R75, D29). -/
theorem runStmt_next_of_isClean {st : HostStmt} (h : st.isClean = true) (s : State) : ∃ t, runStmt st s = .next t := by
  cases st with
  | rd bytes off =>
    obtain ⟨rfl, hoff⟩ : bytes = 4 ∧ off.toNat % 4 = 0 := by simpa [HostStmt.isClean] using h
    exact ⟨_, runStmt_rd hoff s⟩
  | wr bytes off x =>
    obtain ⟨rfl, hoff⟩ : bytes = 4 ∧ off.toNat % 4 = 0 := by simpa [HostStmt.isClean] using h
    exact ⟨_, runStmt_wr hoff x s⟩
  | bnz reg lo width target | bz reg lo width target | jmp target | halt | powerReset => exact ⟨_, rfl⟩

/-- A host write leaves the host's program. -/
theorem busWrite_prog (s : State) (off : Offset) (x : Word) : (s.busWrite off x).prog = s.prog := by
  rcases busWrite_cases s off x with h | ⟨-, -, hprog, -, -⟩
  · rw [h]; rfl
  · exact hprog

/-- A host statement leaves the host's program. -/
theorem runStmt_prog {st : HostStmt} {s t : State} (h : runStmt st s = .next t) : t.prog = s.prog := by
  rcases runStmt_cases h with ⟨off, -, rfl⟩ | ⟨off, x, -, rfl⟩ | ⟨n, rfl⟩ | ⟨-, rfl⟩
  · rfl
  · exact busWrite_prog s off x
  · rfl
  · rfl

/-- The next statement of a clean program is clean. -/
theorem isClean_nextStmt {s : State} {st : HostStmt} (h : s.cleanProgram = true) (hn : s.nextStmt = some st) :
    st.isClean = true :=
  List.all_eq_true.mp h st (List.mem_of_getElem? hn)

/-- While the host's program is clean every step goes on, and it leaves the program (R325, D29). -/
theorem step_next_of_cleanProgram {s : State} (h : s.cleanProgram = true) : ∃ t, step s = .next t ∧ t.prog = s.prog := by
  rcases step_cases s with ⟨-, -, e⟩ | ⟨st, -, hn, e⟩ | ⟨q, hq, hd, -⟩ | ⟨q, st, -, -, -, hn, e⟩
  · exact ⟨s, e, rfl⟩
  · obtain ⟨t, ht⟩ := runStmt_next_of_isClean (isClean_nextStmt h hn) s
    exact ⟨t, e.trans ht, runStmt_prog ht⟩
  · obtain ⟨t, code, hs, -, hc⟩ := due_completes ⟨hq, hd⟩
    exact ⟨t, hs, hc.prog⟩
  · obtain ⟨t, ht⟩ := runStmt_next_of_isClean (isClean_nextStmt h hn) s.tick
    exact ⟨t, e.trans ht, (runStmt_prog ht).trans (tick_prog s)⟩

/-! ## The octad table -/

/-- OCTROM has 759 entries (R90). -/
theorem octRom_length : octRom.length = 759 := by decide +kernel

/-- Each entry of OCTROM is below the next. -/
theorem octRom_isChain : octRom.IsChain (fun x y => x.toNat < y.toNat) := by decide +kernel

/-- OCTROM is strictly increasing (R90). -/
theorem octRom_pairwise : octRom.Pairwise (fun x y => x.toNat < y.toNat) :=
  have : IsTrans Vec (fun x y => x.toNat < y.toNat) := ⟨fun _ _ _ => Nat.lt_trans⟩
  octRom_isChain.pairwise

theorem octRom_nodup : octRom.Nodup :=
  octRom_pairwise.imp fun hlt heq => Nat.ne_of_lt hlt (congrArg BitVec.toNat heq)

/-- Every entry of OCTROM is the codeword of its own bits at INFO, and has weight 8. -/
theorem octRom_checked :
    (octRom.all fun v => golayEncode (gather infoSet v) == v && popcount v == 8) = true := by decide +kernel

/-- Every entry of OCTROM is an octad (R210). -/
theorem isOctad_of_mem_octRom {v : Vec} (h : v ∈ octRom) : IsOctad v := by
  have hv := List.all_eq_true.mp octRom_checked v h
  simp only [Bool.and_eq_true, beq_iff_eq] at hv
  obtain ⟨hcode, hweight⟩ := hv
  exact ⟨⟨_, hcode.symm⟩, hweight⟩

/-- acc with every choice of the listed words added: the words that `spanAll` goes through. -/
def spanList : List Vec → Vec → List Vec
  | [],      acc => [acc]
  | b :: bs, acc => spanList bs acc ++ spanList bs (acc ^^^ b)

theorem spanAll_iff (p : Vec → Bool) (bs : List Vec) (acc : Vec) :
    spanAll p bs acc = true ↔ ∀ c ∈ spanList bs acc, p c = true := by
  induction bs generalizing acc with
  | nil => simp [spanAll, spanList]
  | cons b bs ih => simp [spanAll, spanList, ih, or_imp, forall_and]

/-- The words of weight 8 among all sums of basis words (R181, R210). -/
def spanOctads : List Vec := (spanList basis.toList 0#24).filter fun c => popcount c == 8

/-- The list holds every octad (R181, R210). -/
theorem mem_spanOctads_of_isOctad {v : Vec} (h : IsOctad v) : v ∈ spanOctads := by
  obtain ⟨hcode, hweight⟩ := h
  have hall : spanAll (fun c => decide (c ∈ spanList basis.toList 0#24)) basis.toList 0#24 = true :=
    (spanAll_iff _ _ _).mpr fun c hc => decide_eq_true hc
  exact List.mem_filter.mpr ⟨of_decide_eq_true (inCode_all hall hcode), beq_iff_eq.mpr hweight⟩

/-- The code has 759 words of weight 8 (R210). -/
theorem length_spanOctads : spanOctads.length = 759 := by decide +kernel

/-- OCTROM's entries are exactly the octads: they are 759 different ones, and there are no more (R90, R210). -/
theorem mem_octRom_iff (v : Vec) : v ∈ octRom ↔ IsOctad v := by
  have hsub : octRom.Subperm spanOctads :=
    octRom_nodup.subperm fun _ hv => mem_spanOctads_of_isOctad (isOctad_of_mem_octRom hv)
  have hperm : octRom.Perm spanOctads :=
    hsub.perm_of_length_le (by rw [length_spanOctads, octRom_length])
  exact ⟨isOctad_of_mem_octRom, fun h => hperm.mem_iff.mpr (mem_spanOctads_of_isOctad h)⟩

/-! ## The obligations -/

/-- Settles O21: the offset that is asked for rules out every register a write changes, and then every register a read shows. -/
theorem unmappedAndReadOnlyOffsets : Obligations.UnmappedAndReadOnlyOffsets := by
  unfold Obligations.UnmappedAndReadOnlyOffsets
  intro s off x _ hctrl hstatus hcmd hv hp
  unfold State.busWrite State.busRead
  cases hr : regAt off with
  | ctrl => exact absurd (eq_offset_of_regAt hr rfl) hctrl
  | status => exact absurd (eq_offset_of_regAt hr rfl) hstatus
  | cmd => exact absurd (eq_offset_of_regAt hr rfl) hcmd
  | v i => exact absurd (eq_offset_of_regAt hr rfl) (hv i)
  | p i j => exact absurd ((eq_offset_of_regAt hr rfl).trans (pOffset_eq i j).symm) (hp i j)
  | id => exact ⟨rfl, fun hid _ _ _ => absurd (eq_offset_of_regAt hr rfl) hid⟩
  | sres => exact ⟨rfl, fun _ hsres _ _ => absurd (eq_offset_of_regAt hr rfl) hsres⟩
  | gridLo => exact ⟨rfl, fun _ _ hlo _ => absurd (eq_offset_of_regAt hr rfl) hlo⟩
  | gridHi => exact ⟨rfl, fun _ _ _ hhi => absurd (eq_offset_of_regAt hr rfl) hhi⟩
  | unmapped => exact ⟨rfl, fun _ _ _ _ => rfl⟩

/-- Settles O26: `step_next_of_cleanProgram`, since cleanness is said of the program alone. -/
theorem cleanProgramsNeverStop : Obligations.CleanProgramsNeverStop := by
  unfold Obligations.CleanProgramsNeverStop
  intro s h
  obtain ⟨t, hs, hprog⟩ := step_next_of_cleanProgram h
  exact ⟨t, hs, by rw [State.cleanProgram, hprog]; exact h⟩

/-- Settles O40 from the table's length, its order and its members. -/
theorem octromIsTheOctads : Obligations.OctromIsTheOctads :=
  ⟨octRom_length, octRom_pairwise, mem_octRom_iff⟩

/-- Settles O24: no completion is due, so the step is the host's access, and that is refused. -/
theorem accessOutsideTheInterfaceIsRefused : Obligations.AccessOutsideTheInterfaceIsRefused := by
  unfold Obligations.AccessOutsideTheInterfaceIsRefused
  rintro s bytes off x h (hn | hn) hdelay
  · rw [step_eq_runStmt (not_due_of_delay_ne_zero hdelay hn nofun) hn, runStmt_rd_refused (accessRefusal_eq_some h)]
  · rw [step_eq_runStmt (not_due_of_delay_ne_zero hdelay hn nofun) hn, runStmt_wr_refused (accessRefusal_eq_some h)]

end Sys2Proof.Machine

/-! PROOFS. The command word of 30_encoding.md: the decoder said once as an equivalence (R115, R116), the assembled word as the
sum of its fields (R118), and the opcode table (R112, R114). -/

namespace Sys2Proof

/-! ## What the decoder answers -/

/-- The command of i's row with the operands that stand in the word's fields (R110, R114). -/
def Instr.readFrom (w : Word) : Instr → Instr
  | .nop         => .nop
  | .hexl _      => .hexl (immField w).toNat
  | .hexv _      => .hexv (immField w)
  | .hexs _      => .hexs (vecIndex (aField w))
  | .enc _ _     => .enc (vecIndex (dField w)) (immField w)
  | .syn _       => .syn (vecIndex (aField w))
  | .iscw _      => .iscw (vecIndex (aField w))
  | .dec _ _     => .dec (vecIndex (dField w)) (vecIndex (aField w))
  | .cmpl _ _    => .cmpl (vecIndex (dField w)) (vecIndex (aField w))
  | .octf _      => .octf (vecIndex (aField w))
  | .octr _ _    => .octr (vecIndex (dField w)) (immField w).toNat
  | .sel _       => .sel (immField w).toNat
  | .desel _     => .desel (immField w).toNat
  | .grst        => .grst
  | .gcmpl _     => .gcmpl (vecIndex (dField w))
  | .gdec _      => .gdec (vecIndex (dField w))
  | .gmask _ _   => .gmask (vecIndex (dField w)) (immField w).toNat
  | .gapply _    => .gapply (immField w).toNat
  | .gperm _     => .gperm (permIndex (aField w))
  | .pgen _ _    => .pgen (permIndex (dField w)) (immField w).toNat
  | .pid _       => .pid (permIndex (dField w))
  | .pcomp _ _ _ => .pcomp (permIndex (dField w)) (permIndex (aField w)) (permIndex (bField w))
  | .pinv _ _    => .pinv (permIndex (dField w)) (permIndex (aField w))
  | .papv _ _ _  => .papv (vecIndex (dField w)) (permIndex (aField w)) (vecIndex (bField w))
  | .ptest _     => .ptest (permIndex (aField w))

/-- (match, mask) of a command's row (R112, R114). -/
def Instr.row (i : Instr) : Word × Word := (pattern i.opcode, i.format.mask)

@[simp] theorem readFrom_row (w : Word) (i : Instr) : (i.readFrom w).row = i.row := by cases i <;> rfl

/-- The opcode selects the row (R115). -/
theorem decode_eq_legalAs {w : Word} {i : Instr} (h : opField w = i.opcode) :
    decode w = legalAs i.format w (i.readFrom w) := by
  unfold decode
  rw [h]
  cases i <;> rfl

/-- The opcode of a row is all that its match and mask say of bits 7:0 (R112). -/
theorem opField_eq_of_fits {f : Format} {w : Word} {op : Byte} (h : w &&& f.mask = pattern op) : opField w = op := by
  have ho : opField f.mask = BitVec.allOnes 8 := by cases f <;> decide
  have h := congrArg opField h
  rwa [← assemble_fields w, ← assemble_fields f.mask, assemble_and, pattern_eq_assemble, opField_assemble,
    opField_assemble, ho, BitVec.and_allOnes] at h

/-- A word that fits a row decodes to that row's command with the operands in its fields (R116). -/
theorem decode_of_fits {w : Word} {i : Instr} (h : w &&& i.format.mask = pattern i.opcode) :
    decode w = some (i.readFrom w) := by
  have ho := opField_eq_of_fits h
  rw [decode_eq_legalAs ho]
  exact legalAs_eq_some.mpr ⟨by rw [h, ho], rfl⟩

/-- All the decoder can answer: the word fits the command's row and the operands are those in its fields (R115, R116). -/
theorem decode_eq_some_iff {w : Word} {i : Instr} :
    decode w = some i ↔ w &&& i.format.mask = pattern i.opcode ∧ i.readFrom w = i := by
  constructor
  · intro h
    exact ⟨decode_mask h, Option.some.inj ((decode_of_fits (decode_mask h)).symm.trans h)⟩
  · rintro ⟨hfit, hread⟩
    rw [decode_of_fits hfit, hread]

/-! ## Decoding an encoded command -/

open Laws in
/-- Every command's word fits its row (R112). -/
theorem fits_encode : ∀ i : Instr, encode i &&& i.format.mask = pattern i.opcode
  | .nop         => FixedBits.nop
  | .hexl p      => FixedBits.hexl p
  | .hexv h      => FixedBits.hexv h
  | .hexs a      => FixedBits.hexs a
  | .enc d x     => FixedBits.enc d x
  | .syn a       => FixedBits.syn a
  | .iscw a      => FixedBits.iscw a
  | .dec d a     => FixedBits.dec d a
  | .cmpl d a    => FixedBits.cmpl d a
  | .octf a      => FixedBits.octf a
  | .octr d k    => FixedBits.octr d k
  | .sel pt      => FixedBits.sel pt
  | .desel pt    => FixedBits.desel pt
  | .grst        => FixedBits.grst
  | .gcmpl d     => FixedBits.gcmpl d
  | .gdec d      => FixedBits.gdec d
  | .gmask d k   => FixedBits.gmask d k
  | .gapply n    => FixedBits.gapply n
  | .gperm a     => FixedBits.gperm a
  | .pgen d n    => FixedBits.pgen d n
  | .pid d       => FixedBits.pid d
  | .pcomp d a b => FixedBits.pcomp d a b
  | .pinv d a    => FixedBits.pinv d a
  | .papv d a b  => FixedBits.papv d a b
  | .ptest a     => FixedBits.ptest a

/-- An immediate that is in range comes back from the IMM field (R111). -/
theorem numField_toNat_of_immFits {n : Nat} (h : immFits n = true) : (numField n).toNat = n :=
  numField_toNat (of_decide_eq_true h)

/-- The operands of a well-formed command come back from the fields of its word (R110, R118). -/
theorem readFrom_encode {i : Instr} (h : i.wellFormed = true) : i.readFrom (encode i) = i := by
  cases i with
  | nop | grst => rfl
  | hexl n | sel n | desel n | gapply n | octr d n | gmask d n | pgen d n =>
    have hn := numField_toNat_of_immFits h
    simp [Instr.readFrom, encode, hn]
  | hexv | hexs | enc | syn | iscw | dec | cmpl | octf | gcmpl | gdec | gperm | pid | pcomp | pinv | papv | ptest =>
    simp [Instr.readFrom, encode]

/-! ## Encoding a decoded command -/

/-- A word that fits a row is assembled from its opcode and any fields that agree with its own where the mask leaves a choice
(R112). -/
theorem assemble_eq_of_fits (f : Format) {w : Word} {imm : BitVec 12} {b a d : BitVec 4} {op : Byte}
    (h : w &&& f.mask = pattern op) (hi : immField w &&& immField f.mask = 0 → imm = immField w)
    (hb : bField w &&& bField f.mask = 0 → b = bField w) (ha : aField w &&& aField f.mask = 0 → a = aField w)
    (hd : dField w &&& dField f.mask = 0 → d = dField w) : assemble imm b a d op = w := by
  have hm : assemble (immField w &&& immField f.mask) (bField w &&& bField f.mask) (aField w &&& aField f.mask)
      (dField w &&& dField f.mask) (opField w &&& opField f.mask) = assemble 0 0 0 0 op := by
    rw [← assemble_and, assemble_fields, assemble_fields, h, pattern_eq_assemble]
  have himm := congrArg immField hm
  have hbf := congrArg bField hm
  have haf := congrArg aField hm
  have hdf := congrArg dField hm
  simp only [immField_assemble, bField_assemble, aField_assemble, dField_assemble] at himm hbf haf hdf
  rw [hi himm, hb hbf, ha haf, hd hdf, ← opField_eq_of_fits h, assemble_fields]

/-- A field whose mask bits are all one is zero. -/
theorem zero_eq_of_and_allOnes {n : Nat} {x : BitVec n} (h : x &&& BitVec.allOnes n = 0) : 0 = x := by
  rw [← h, BitVec.and_allOnes]

/-- A register field whose upper bits are zero comes back from its index (R111). -/
theorem regField_vecIndex : ∀ {x : BitVec 4}, x &&& 0x8#4 = 0 → regField (vecIndex x) = x := by decide
theorem regField_permIndex : ∀ {x : BitVec 4}, x &&& 0xC#4 = 0 → regField (permIndex x) = x := by decide

/-- A number immediate read from the IMM field comes back (R111). -/
theorem numField_toNat_self (x : BitVec 12) : numField x.toNat = x := by simp [numField]

theorem encode_readFrom {w : Word} {i : Instr} (h : w &&& i.format.mask = pattern i.opcode) :
    encode (i.readFrom w) = w := by
  cases i with
  | nop | grst =>
    exact assemble_eq_of_fits .n h zero_eq_of_and_allOnes zero_eq_of_and_allOnes zero_eq_of_and_allOnes zero_eq_of_and_allOnes
  | hexl | sel | desel | gapply =>
    exact assemble_eq_of_fits .i h (fun _ => numField_toNat_self _) zero_eq_of_and_allOnes zero_eq_of_and_allOnes
      zero_eq_of_and_allOnes
  | hexv =>
    exact assemble_eq_of_fits .i h (fun _ => rfl) zero_eq_of_and_allOnes zero_eq_of_and_allOnes zero_eq_of_and_allOnes
  | hexs | syn | iscw | octf =>
    exact assemble_eq_of_fits .va h zero_eq_of_and_allOnes zero_eq_of_and_allOnes regField_vecIndex zero_eq_of_and_allOnes
  | enc =>
    exact assemble_eq_of_fits .vdi h (fun _ => rfl) zero_eq_of_and_allOnes zero_eq_of_and_allOnes regField_vecIndex
  | octr | gmask =>
    exact assemble_eq_of_fits .vdi h (fun _ => numField_toNat_self _) zero_eq_of_and_allOnes zero_eq_of_and_allOnes
      regField_vecIndex
  | dec | cmpl =>
    exact assemble_eq_of_fits .vda h zero_eq_of_and_allOnes zero_eq_of_and_allOnes regField_vecIndex regField_vecIndex
  | gcmpl | gdec =>
    exact assemble_eq_of_fits .vd h zero_eq_of_and_allOnes zero_eq_of_and_allOnes zero_eq_of_and_allOnes regField_vecIndex
  | gperm | ptest =>
    exact assemble_eq_of_fits .pa h zero_eq_of_and_allOnes zero_eq_of_and_allOnes regField_permIndex zero_eq_of_and_allOnes
  | pgen =>
    exact assemble_eq_of_fits .pdi h (fun _ => numField_toNat_self _) zero_eq_of_and_allOnes zero_eq_of_and_allOnes
      regField_permIndex
  | pid =>
    exact assemble_eq_of_fits .pd h zero_eq_of_and_allOnes zero_eq_of_and_allOnes zero_eq_of_and_allOnes regField_permIndex
  | pcomp =>
    exact assemble_eq_of_fits .pdab h zero_eq_of_and_allOnes regField_permIndex regField_permIndex regField_permIndex
  | pinv =>
    exact assemble_eq_of_fits .pda h zero_eq_of_and_allOnes zero_eq_of_and_allOnes regField_permIndex regField_permIndex
  | papv =>
    exact assemble_eq_of_fits .vpv h zero_eq_of_and_allOnes regField_vecIndex regField_permIndex regField_vecIndex

/-- Every IMM field is in range as a number (R111). -/
theorem wellFormed_readFrom (w : Word) (i : Instr) : (i.readFrom w).wellFormed = true := by
  have himm : immFits (immField w).toNat = true := decide_eq_true (immField w).isLt
  cases i with
  | hexl | octr | sel | desel | gmask | gapply | pgen => exact himm
  | _ => rfl

/-! ## The opcode table -/

/-- One command of each row, in the table's order (R114). -/
def oneOfEachRow : List Instr :=
  [.nop, .hexl 0, .hexv 0, .hexs 0, .enc 0 0, .syn 0, .iscw 0, .dec 0 0, .cmpl 0 0, .octf 0, .octr 0 0, .sel 0, .desel 0, .grst,
   .gcmpl 0, .gdec 0, .gmask 0 0, .gapply 0, .gperm 0, .pgen 0 0, .pid 0, .pcomp 0 0 0, .pinv 0 0, .papv 0 0 0, .ptest 0]

theorem opcodeRows_eq_map : opcodeRows = oneOfEachRow.map Instr.row := by decide

/-- The rows of the table are the rows of the commands (R112, R114). -/
theorem mem_opcodeRows_iff {r : Word × Word} : r ∈ opcodeRows ↔ ∃ i : Instr, i.row = r := by
  constructor
  · rw [opcodeRows_eq_map, List.mem_map]
    rintro ⟨i, -, hi⟩
    exact ⟨i, hi⟩
  · rintro ⟨i, rfl⟩
    have hmem : opcodeRows.contains i.row = true := by cases i <;> rfl
    exact List.contains_iff_mem.mp hmem

/-! ## The assembled word as a number -/

theorem toNat_append_add {n m : Nat} (x : BitVec n) (y : BitVec m) : (x ++ y).toNat = x.toNat * 2 ^ m + y.toNat := by
  rw [BitVec.toNat_append, ← Nat.shiftLeft_add_eq_or_of_lt y.isLt, Nat.shiftLeft_eq]

/-- R118's word as a sum. -/
theorem toNat_assemble (imm : BitVec 12) (b a d : BitVec 4) (op : Byte) :
    (assemble imm b a d op).toNat =
      imm.toNat * 2 ^ 20 + b.toNat * 2 ^ 16 + a.toNat * 2 ^ 12 + d.toNat * 2 ^ 8 + op.toNat := by
  simp only [assemble, toNat_append_add]
  omega

/-- A register index is its field's number (R111). -/
@[simp] theorem toNat_regField_v : ∀ r : VReg, (regField r).toNat = r.val := by decide
@[simp] theorem toNat_regField_p : ∀ r : PReg, (regField r).toNat = r.val := by decide

/-! ## The obligations -/

/-- Settles O1: the word fits the command's row, and its fields give the operands back. -/
theorem decodeOfEncode : Obligations.DecodeOfEncode := by
  unfold Obligations.DecodeOfEncode
  intro i h
  exact decode_eq_some_iff.mpr ⟨fits_encode i, readFrom_encode h⟩

/-- Settles O2: the command is what the word's fields say, and assembling those gives the word. -/
theorem encodeOfDecode : Obligations.EncodeOfDecode := by
  unfold Obligations.EncodeOfDecode
  intro w i h
  obtain ⟨hfit, hread⟩ := decode_eq_some_iff.mp h
  have henc := encode_readFrom hfit
  have hwf := wellFormed_readFrom w i
  rw [hread] at henc hwf
  exact ⟨henc, hwf⟩

/-- Settles O3: the table's rows are the commands' rows, and a word decodes to one command, whichever row it fits. -/
theorem legalWordsAreTheOpcodeTable : Obligations.LegalWordsAreTheOpcodeTable := by
  unfold Obligations.LegalWordsAreTheOpcodeTable
  refine fun w => ⟨⟨?_, ?_⟩, ?_⟩
  · rintro ⟨i, hi⟩
    exact ⟨i.row, mem_opcodeRows_iff.mpr ⟨i, rfl⟩, decode_mask hi⟩
  · rintro ⟨r, hr, hfit⟩
    obtain ⟨i, rfl⟩ := mem_opcodeRows_iff.mp hr
    exact ⟨_, decode_of_fits hfit⟩
  · intro r hr r' hr' hfit hfit'
    obtain ⟨i, rfl⟩ := mem_opcodeRows_iff.mp hr
    obtain ⟨j, rfl⟩ := mem_opcodeRows_iff.mp hr'
    have hij : i.readFrom w = j.readFrom w :=
      Option.some.inj ((decode_of_fits hfit).symm.trans (decode_of_fits hfit'))
    rw [← readFrom_row w i, hij, readFrom_row]

/-- Settles O5: the sum of the fields, command by command. -/
theorem assembledWordIsItsFields : Obligations.AssembledWordIsItsFields := by
  unfold Obligations.AssembledWordIsItsFields
  intro i h
  cases i with
  | hexl n | sel n | desel n | gapply n | octr d n | gmask d n | pgen d n =>
    have hn := numField_toNat_of_immFits h
    simp [encode, wordFields, toNat_assemble, hn]
  | _ => simp [encode, wordFields, toNat_assemble]

/-- A well-formed command and its word determine each other. -/
theorem encode_decode_of_eq {i : Instr} {w : Word} (hw : i.wellFormed = true) (h : encode i = w) :
    encode i = w ∧ decode w = some i :=
  ⟨h, h ▸ decodeOfEncode i hw⟩

/-- Settles O4: the words are the commands' encodings, and `decodeOfEncode` gives the way back. -/
theorem workedEncodings : Obligations.WorkedEncodings :=
  ⟨encode_decode_of_eq rfl (by decide), encode_decode_of_eq rfl (by decide), encode_decode_of_eq rfl (by decide),
    encode_decode_of_eq rfl (by decide), encode_decode_of_eq rfl (by decide), encode_decode_of_eq rfl (by decide)⟩

end Sys2Proof

/-! PROOFS. The completion of a command: the code each command reports (60_exceptions.md R320), the completion of an illegal
word (R115, R321), a command issued and waited for (30_encoding.md R121; 70_reset_and_hazards.md R371-R375), and PCOMP
(44_group.md R292). -/

namespace Sys2Proof.Machine

/-! ## PCOMP -/

/-- PCOMP of two bijections commits their composite (R292). -/
theorem exec_pcomp_ok {s : State} {a b : PReg} (ha : IsBijection s.p[a]) (hb : IsBijection s.p[b]) (d : PReg) :
    exec (.pcomp d a b) s = complete (Instr.pcomp d a b).opcode (.ok (s.setP d (compose s.p[a] s.p[b]))) s := by
  simp only [exec, execPcomp, permOperand_ok ha, permOperand_ok hb]

/-- PCOMP with an ill-formed operand raises InvalidPattern (R284, R292). -/
theorem exec_pcomp_error {s : State} {a b : PReg} (h : ¬ IsBijection s.p[a] ∨ ¬ IsBijection s.p[b]) (d : PReg) :
    exec (.pcomp d a b) s = complete (Instr.pcomp d a b).opcode (.error .invalidPattern) s := by
  by_cases ha : IsBijection s.p[a]
  · have hb := permOperand_error (h.resolve_left (not_not.mpr ha))
    simp only [exec, execPcomp, permOperand_ok ha, hb]
  · simp only [exec, execPcomp, permOperand_error ha]

/-- The composite of two bijections is one (R282, R284). -/
theorem isBijection_compose {a b : Perm} (ha : IsBijection a) (hb : IsBijection b) : IsBijection (compose a b) := by
  refine ⟨fun i => ?_, fun i j hij => ?_⟩
  · rw [compose_getElem ha]
    exact hb.1 ⟨a[i].toNat, ha.1 i⟩
  · rw [compose_getElem ha, compose_getElem ha] at hij
    have hmid := hb.2 ⟨a[i].toNat, ha.1 i⟩ ⟨a[j].toNat, ha.1 j⟩ hij
    exact ha.2 i j (BitVec.eq_of_toNat_eq (Fin.mk.inj hmid))

/-- A write to P[d] is read back from P[d] and leaves the other permutation registers (R12). -/
theorem getElem_setP_same (s : State) (d : PReg) (q : Perm) : (s.setP d q).p[d] = q := by
  simp
theorem otherP_setP (s : State) (d : PReg) (q : Perm) : OtherP d s (s.setP d q) := fun r hr => by
  have hne : d.val ≠ r.val := fun e => hr (Fin.ext e.symm)
  simp [hne]

/-! ## The reported code -/

/-- A command that commits reports 0, one that raises its error's code (R320, R323). -/
theorem errCode_of_ok {op : Byte} {r : Except CmdError State} {s t u : State} (h : complete op r s = .next t)
    (hr : r = .ok u) : t.errCode = 0#4 := by
  subst hr
  cases h
  rfl
theorem errCode_of_error {op : Byte} {r : Except CmdError State} {s t : State} {e : CmdError}
    (h : complete op r s = .next t) (hr : r = .error e) : t.errCode = e.code := by
  subst hr
  cases h
  rfl

/-- A command with one error that raises it just where the operands are outside the domain (R320). -/
theorem codeIf_of_complete {op : Byte} {r : Except CmdError State} {s t : State} {outside : Prop} {e : CmdError}
    (h : complete op r s = .next t) (hout : outside → r = .error e) (hin : ¬ outside → ∃ u, r = .ok u) :
    CodeIf outside e.code t.errCode :=
  ⟨fun ho => errCode_of_error h (hout ho), fun ho => (hin ho).elim fun _ hu => errCode_of_ok h hu⟩

/-- What the completer answers (R211): too few points, no octad, or an octad that contains them. -/
theorem completion_few {S : Vec} (h : popcount S < 5) : completion S = .error .ambiguousInput := if_pos h
theorem completion_none {S : Vec} (h : 5 ≤ popcount S) (hno : ∀ O, IsOctad O → ¬ Within S O) :
    completion S = .error .noCompletion := by
  have hfind : octRom.find? (fun O => S &&& O == S) = none :=
    List.find?_eq_none.mpr fun O hO hin => hno O ((mem_octRom_iff O).mp hO) (beq_iff_eq.mp hin)
  rw [completion, if_neg (by omega), hfind]
theorem completion_some {S : Vec} (h : 5 ≤ popcount S) (hex : ∃ O, IsOctad O ∧ Within S O) :
    ∃ O, completion S = .ok O := by
  obtain ⟨O, hO, hin⟩ := hex
  have hfind : (octRom.find? fun O => S &&& O == S).isSome = true :=
    List.find?_isSome.mpr ⟨O, (mem_octRom_iff O).mpr hO, beq_iff_eq.mpr hin⟩
  obtain ⟨O', hO'⟩ := Option.isSome_iff_exists.mp hfind
  exact ⟨O', by rw [completion, if_neg (by omega), hO']⟩

/-- A command that completes the set S, and raises what the completer raises, reports the completer's code (R320). -/
theorem completionCode_of_complete {op : Byte} {r : Except CmdError State} {s t : State} {S : Vec}
    (h : complete op r s = .next t) (herr : ∀ e, completion S = .error e → r = .error e)
    (hok : ∀ O, completion S = .ok O → ∃ u, r = .ok u) : CompletionCode S t.errCode := by
  refine ⟨fun hfew => ?_, fun h5 hno => ?_, fun h5 hex => ?_⟩
  · exact errCode_of_error h (herr _ (completion_few hfew))
  · exact errCode_of_error h (herr _ (completion_none h5 hno))
  · obtain ⟨O, hO⟩ := completion_some h5 hex
    obtain ⟨u, hu⟩ := hok O hO
    exact errCode_of_ok h hu

/-- The selection is the vector of the Selected cells (R238). -/
theorem eq_selmask_of_isSelection {g : Vector Cell 24} {S : Vec} (h : IsSelection g S) : S = selmask g := by
  apply BitVec.eq_of_getLsbD_eq
  intro i hi
  rw [h ⟨i, hi⟩, selmask, getLsbD_cellsWhere _ g ⟨i, hi⟩]

/-- Every command reports the code that R320's table gives for its operands. -/
theorem reportsCode_of_exec {i : Instr} {s t : State} (h : exec i s = .next t) : ReportsCode s t.errCode i := by
  cases i with
  | nop | hexv | hexs | enc | syn | iscw | dec | octf | grst | gdec | pid | ptest => cases h; rfl
  | hexl p | octr d k | gmask d k =>
    exact codeIf_of_complete (e := .invalidPattern) h (fun hout => if_pos hout) fun hin => ⟨_, if_neg hin⟩
  | sel pt | desel pt =>
    exact codeIf_of_complete (e := .invalidPattern) h (fun hout => by rw [pointOperand_error hout])
      fun hin => ⟨_, by rw [pointOperand_ok (Nat.lt_of_not_le hin)]⟩
  | gapply n | pgen d n =>
    refine codeIf_of_complete (e := .unknownGenerator) h (fun hout => by rw [genOperand_error hout]) fun hin => ?_
    obtain ⟨g, hg⟩ := genOperand_ok (n := n) (by omega)
    exact ⟨_, by rw [hg]⟩
  | gperm a | pinv d a | papv d a b =>
    exact codeIf_of_complete (e := .invalidPattern) h (fun hout => by rw [permOperand_error hout])
      fun hin => ⟨_, by rw [permOperand_ok (not_not.mp hin)]⟩
  | pcomp d a b =>
    refine ⟨fun hout => errCode_of_error ((exec_pcomp_error hout d).symm.trans h) rfl, fun hin => ?_⟩
    obtain ⟨ha, hb⟩ := not_or.mp hin
    exact errCode_of_ok ((exec_pcomp_ok (not_not.mp ha) (not_not.mp hb) d).symm.trans h) rfl
  | cmpl d a =>
    simp only [exec, execCmpl, getV_eq] at h
    exact completionCode_of_complete h (fun e he => by rw [he]) fun O hO => ⟨_, by rw [hO]⟩
  | gcmpl d =>
    intro S hS
    obtain rfl := eq_selmask_of_isSelection hS
    simp only [exec, execGcmpl] at h
    exact completionCode_of_complete h (fun e he => by rw [he]) fun O hO => ⟨_, by rw [hO]⟩

/-- The completion of any word, legal or not: the fields it writes (R324) and the code it reports (R320). -/
theorem completionStep_reports (w : Word) (s : State) :
    ∃ t code, completionStep w s = .next t ∧ Completed (opField w) code s t ∧ code.toNat ≤ 5 ∧
      (decode w = none → code = 5#4) ∧ ∀ i, decode w = some i → ReportsCode s code i := by
  rcases completionStep_cases w s with ⟨i, hi, h⟩ | ⟨hw, h⟩
  · obtain ⟨t, code, hexec, hle, hc⟩ := exec_completes i s
    rw [decode_opcode hi] at hc
    refine ⟨t, code, h.trans hexec, hc, hle, by simp [hi], fun j hj => ?_⟩
    obtain rfl : i = j := Option.some.inj (hi.symm.trans hj)
    rw [← hc.errCode]
    exact reportsCode_of_exec hexec
  · exact ⟨_, 5#4, h, (raise_completed s _ .illegalCommand).1, by decide, fun _ => rfl, by simp [hw]⟩

/-! ## A command and the host's side -/

/-- s with another host side (another pending command, and the host at another place): what differs between the state a command
is issued in and the one it completes in (R41, R377). -/
def State.withHost (s : State) (q : Option Pending) (n : Nat) (vs : List (Nat × Word)) (k : Nat) : State :=
  { s with pend := q, pos := n, vars := vs, issued := k }

section WithHost
variable (s : State) (q : Option Pending) (n : Nat) (vs : List (Nat × Word)) (k : Nat)

@[simp] theorem withHost_v : (s.withHost q n vs k).v = s.v := rfl
@[simp] theorem withHost_p : (s.withHost q n vs k).p = s.p := rfl
@[simp] theorem withHost_grid : (s.withHost q n vs k).grid = s.grid := rfl
@[simp] theorem withHost_permOperand (i : PReg) : (s.withHost q n vs k).permOperand i = s.permOperand i := rfl
@[simp] theorem withHost_setV (d : VReg) (x : Vec) :
    (s.withHost q n vs k).setV d x = (s.setV d x).withHost q n vs k := rfl
@[simp] theorem withHost_setP (d : PReg) (x : Perm) :
    (s.withHost q n vs k).setP d x = (s.setP d x).withHost q n vs k := rfl
@[simp] theorem withHost_setSres (x : Word) : (s.withHost q n vs k).setSres x = (s.setSres x).withHost q n vs k := rfl
@[simp] theorem withHost_setGrid (g : Vector Cell 24) :
    (s.withHost q n vs k).setGrid g = (s.setGrid g).withHost q n vs k := rfl

/-- A command's pseudocode neither reads nor assigns the host's side (R13, R322). -/
theorem exec_eq_complete_withHost (i : Instr) :
    ∃ r r', exec i s = complete i.opcode r s ∧ exec i (s.withHost q n vs k) = complete i.opcode r' (s.withHost q n vs k) ∧
      r' = r.map (State.withHost · q n vs k) := by
  cases i
  all_goals
    simp only [exec, execNop, execHexl, execHexv, execHexs, execEnc, execSyn, execIscw, execDec, execCmpl, execOctf,
      execOctr, execSel, execDesel, execGrst, execGcmpl, execGdec, execGmask, execGapply, execGperm, execPgen, execPid,
      execPcomp, execPinv, execPapv, execPtest, getV_eq, getP_eq, withHost_v, withHost_p, withHost_grid,
      withHost_permOperand, withHost_setV, withHost_setP, withHost_setSres, withHost_setGrid]
    refine ⟨_, _, rfl, rfl, ?_⟩
  case nop | hexv | hexs | enc | syn | iscw | dec | octf | grst | gdec | pid | ptest => rfl
  case hexl | octr | gmask => split <;> rfl
  case sel pt | desel pt => cases pointOperand pt <;> rfl
  case gapply m | pgen m => cases genOperand m <;> rfl
  case gperm a | pinv a | papv a _ => cases s.permOperand a <;> rfl
  case pcomp a b => cases s.permOperand a <;> cases s.permOperand b <;> rfl
  case cmpl a => cases completion s.v[a] <;> rfl
  case gcmpl => cases completion (selmask s.grid) <;> rfl

end WithHost

/-- Completing a word is the same whatever stands on the host's side, which stays; no command is pending after it (R370). -/
theorem completionStep_withHost (w : Word) (s : State) (q : Option Pending) (n : Nat) (vs : List (Nat × Word)) (k : Nat) :
    ∃ u, completionStep w s = .next u ∧ completionStep w (s.withHost q n vs k) = .next (u.withHost none n vs k) := by
  unfold completionStep
  cases decode w with
  | none => exact ⟨_, rfl, rfl⟩
  | some i =>
    obtain ⟨r, r', hs, hh, rfl⟩ := exec_eq_complete_withHost s q n vs k i
    simp only [hs, hh]
    cases r with
    | ok u => exact ⟨_, rfl, rfl⟩
    | error e => exact ⟨_, rfl, rfl⟩

/-! ## Waiting for a command -/

/-- One step leads from s to t. -/
def StepsTo (s t : State) : Prop := step s = .next t

/-- A chain of single steps is some number of steps. -/
theorem exists_reaches_of_reflTransGen {s t : State} (h : Relation.ReflTransGen StepsTo s t) : ∃ k, Reaches k s t := by
  induction h using Relation.ReflTransGen.head_induction_on with
  | refl => exact ⟨0, rfl⟩
  | head hstep _ ih =>
    obtain ⟨k, hk⟩ := ih
    exact ⟨k + 1, _, hstep, hk⟩

/-- `wait` (R121) stands behind the host's next statement. -/
structure WaitFollows (s : State) : Prop where
  rd  : s.prog[s.pos + 1]? = some (.rd 4 0x008#12)
  bnz : s.prog[s.pos + 2]? = some (.bnz 0x008#12 0 1 (s.pos + 1))

/-- BUSY as `wait` tests it (R36, R121). -/
theorem extract_statusWord_busy (s : State) : s.statusWord.extractLsb' 0 1 = BitVec.ofBool s.pend.isSome := by
  ext i hi
  obtain rfl : i = 0 := by omega
  rw [BitVec.getElem_extractLsb', Nat.add_zero, (statusWord_flags s).1]
  simp

/-- A value just kept is the host variable (R120). -/
theorem hostVar_withHost_varsSet (s : State) (q : Option Pending) (n : Nat) (vs : List (Nat × Word)) (k : Nat)
    (off : Offset) (x : Word) : (s.withHost q n (varsSet off.toNat x vs) k).hostVar off = x :=
  hostVar_keepRead_same (s.withHost q n vs k) off x

/-- In s's `wait` with q pending: the host stands at `rd STATUS`, or at the branch back having read BUSY = 1. -/
inductive Waiting (s : State) (q : Option Pending) : State → Prop
  | rd (vs : List (Nat × Word)) (k : Nat) : Waiting s q (s.withHost q (s.pos + 1) vs k)
  | bnz (vs : List (Nat × Word)) (k : Nat)
      (busy : ((s.withHost q (s.pos + 2) vs k).hostVar 0x008#12).extractLsb' 0 1 ≠ 0#1) :
      Waiting s q (s.withHost q (s.pos + 2) vs k)

/-- The `rd STATUS` of `wait`, where no completion is due (R120). -/
theorem step_rd_status {s : State} (hs : WaitFollows s) (q : Option Pending) (vs : List (Nat × Word)) (k : Nat)
    (hd : ∀ p, ¬ (s.withHost q (s.pos + 1) vs k).due p) :
    step (s.withHost q (s.pos + 1) vs k) = .next (s.withHost (s.withHost q 0 [] 0).tick.pend (s.pos + 2)
      (varsSet (0x008#12 : Offset).toNat (s.withHost q (s.pos + 1) vs k).statusWord vs) k) := by
  rw [step_eq_runStmt hd hs.rd, runStmt_rd (by decide), busRead_tick]
  rfl

/-- The branch of `wait`, where no completion is due (R120): back to `rd STATUS` if the last value read has BUSY = 1. -/
theorem step_bnz_busy {s : State} (hs : WaitFollows s) (q : Option Pending) (vs : List (Nat × Word)) (k : Nat)
    (hd : ∀ p, ¬ (s.withHost q (s.pos + 2) vs k).due p) :
    step (s.withHost q (s.pos + 2) vs k) = .next (s.withHost (s.withHost q 0 [] 0).tick.pend
      (if ((s.withHost q (s.pos + 2) vs k).hostVar 0x008#12).extractLsb' 0 1 = 0#1 then s.pos + 3 else s.pos + 1) vs k) := by
  rw [step_eq_runStmt hd hs.bnz, runStmt_bnz]
  rfl

/-- While the command has delay left the host goes on waiting (R372). -/
theorem Waiting.goes_on {s x : State} {w : Word} {n : Nat} (hs : WaitFollows s)
    (h : Waiting s (some { word := w, delay := n + 1 }) x) :
    ∃ y, StepsTo x y ∧ Waiting s (some { word := w, delay := n }) y := by
  cases h with
  | rd vs k =>
    refine ⟨_, step_rd_status hs _ vs k (not_due_of_delay rfl hs.rd nofun), .bnz _ k ?_⟩
    rw [hostVar_withHost_varsSet, extract_statusWord_busy]
    exact (by decide : 1#1 ≠ 0#1)
  | bnz vs k busy =>
    have h := step_bnz_busy hs (some { word := w, delay := n + 1 }) vs k (not_due_of_delay rfl hs.bnz nofun)
    rw [if_neg busy] at h
    exact ⟨_, h, .rd vs k⟩

/-- The command completes where the host waits, with the results it has where it was issued (R370). -/
theorem Waiting.ends_of_due {s x u : State} {w : Word} (hu : completionStep w s = .next u) (hpos : u.pos = s.pos)
    (h : Waiting s (some { word := w, delay := 0 }) x) : ∃ y, StepsTo x y ∧ Waiting u none y := by
  have completes : ∀ m vs k, StepsTo (s.withHost (some { word := w, delay := 0 }) m vs k) (u.withHost none m vs k) := by
    intro m vs k
    obtain ⟨u', hu', hx⟩ := completionStep_withHost w s (some { word := w, delay := 0 }) m vs k
    obtain rfl : u' = u := by simpa [hu'] using hu
    exact (step_of_due ⟨rfl, .inl rfl⟩).trans hx
  cases h with
  | rd vs k => exact ⟨_, completes _ vs k, hpos ▸ .rd vs k⟩
  | bnz vs k busy => exact ⟨_, completes _ vs k, hpos ▸ .bnz vs k busy⟩

/-- Waiting ends with the command's results and an idle core, whatever the delay (R372). -/
theorem Waiting.completes {s u : State} {w : Word} (hs : WaitFollows s) (hu : completionStep w s = .next u)
    (hpos : u.pos = s.pos) (n : Nat) {x : State} (h : Waiting s (some { word := w, delay := n }) x) :
    ∃ y, Relation.ReflTransGen StepsTo x y ∧ Waiting u none y := by
  induction n generalizing x with
  | zero =>
    obtain ⟨y, hxy, hy⟩ := h.ends_of_due hu hpos
    exact ⟨y, .single hxy, hy⟩
  | succ n ih =>
    obtain ⟨x', hstep, hx'⟩ := h.goes_on hs
    obtain ⟨y, hxy, hy⟩ := ih hx'
    exact ⟨y, .head hstep hxy, hy⟩

/-- The host leaves its `wait` for an idle core with the final STATUS read (R121, R375). -/
theorem Waiting.leaves {s x : State} (hs : WaitFollows s) (h : Waiting s none x) :
    ∃ t vs k, Relation.ReflTransGen StepsTo x t ∧ t = s.withHost none (s.pos + 3) vs k ∧
      t.hostVar 0x008#12 = t.statusWord := by
  have fromRd : ∀ vs k, ∃ t vs' k', Relation.ReflTransGen StepsTo (s.withHost none (s.pos + 1) vs k) t ∧
      t = s.withHost none (s.pos + 3) vs' k' ∧ t.hostVar 0x008#12 = t.statusWord := by
    intro vs k
    have h1 := step_rd_status hs none vs k (not_due_of_idle rfl)
    have h2 := step_bnz_busy hs none
      (varsSet (0x008#12 : Offset).toNat (s.withHost none (s.pos + 1) vs k).statusWord vs) k (not_due_of_idle rfl)
    rw [if_pos (by rw [hostVar_withHost_varsSet, extract_statusWord_busy]; rfl)] at h2
    exact ⟨_, _, _, .tail (.single h1) h2, rfl, hostVar_withHost_varsSet ..⟩
  cases h with
  | rd vs k => exact fromRd vs k
  | bnz vs k busy =>
    have h := step_bnz_busy hs none vs k (not_due_of_idle rfl)
    rw [if_neg busy] at h
    obtain ⟨t, vs', k', ht, hrest⟩ := fromRd vs k
    exact ⟨t, vs', k', ht.head h, hrest⟩

/-- An accepted command word leaves the host at the start of its `wait` (R37). -/
theorem stepsTo_issue {s : State} {w : Word} (hidle : s.pend = none) (hwr : s.nextStmt = some (.wr 4 0x00C#12 w)) :
    StepsTo s (s.withHost (some { word := w, delay := Config.latency s.issued }) (s.pos + 1) s.vars (s.issued + 1)) := by
  rw [StepsTo, step_eq_runStmt (not_due_of_idle hidle) hwr, tick_of_idle hidle, runStmt_wr (by decide),
    busWrite_cmd_idle hidle]
  rfl

/-! ## The obligations -/

/-- Settles O8: `completionStep_reports`, since the step at a due state is the completion. -/
theorem completionFieldsAreWritten : Obligations.CompletionFieldsAreWritten := by
  unfold Obligations.CompletionFieldsAreWritten
  intro s q h
  rw [step_of_due h]
  exact completionStep_reports q.word s

/-- Settles O10: a word that fits no row is not decoded, and its completion is the raise of IllegalCommand. -/
theorem illegalWordRaisesIllegalCommand : Obligations.IllegalWordRaisesIllegalCommand := by
  unfold Obligations.IllegalWordRaisesIllegalCommand
  intro s q h hno
  rw [step_of_due h]
  rcases completionStep_cases q.word s with ⟨i, hi, -⟩ | ⟨-, hraise⟩
  · exact absurd (decode_mask hi) (hno i.row (mem_opcodeRows_iff.mpr ⟨i, rfl⟩))
  · exact ⟨_, hraise, raise_completed s _ .illegalCommand⟩

/-- Settles O13: the command is issued, waited for and completed, and the host leaves its `wait`. -/
theorem issueAndWaitRunsTheCommand : Obligations.IssueAndWaitRunsTheCommand := by
  unfold Obligations.IssueAndWaitRunsTheCommand
  intro s w hidle hwr hrd hbnz
  obtain ⟨u, code, hu, hc, -⟩ := completionStep_reports w s
  obtain ⟨y, hxy, hy⟩ := (Waiting.rd s.vars (s.issued + 1)).completes ⟨hrd, hbnz⟩ hu hc.pos (Config.latency s.issued)
  have hwait : WaitFollows u := ⟨by rw [hc.prog, hc.pos]; exact hrd, by rw [hc.prog, hc.pos]; exact hbnz⟩
  obtain ⟨t, vs, k, hyt, rfl, hstatus⟩ := hy.leaves hwait
  obtain ⟨n, hn⟩ := exists_reaches_of_reflTransGen (.head (stepsTo_issue hidle hwr) (hxy.trans hyt))
  exact ⟨n, _, u, hn, hu, ⟨rfl, rfl, rfl, rfl⟩, rfl, hc.done, rfl, rfl, hc.lastOp, hc.ovr, hc.ie, hc.prog,
    congrArg (· + 3) hc.pos, hstatus⟩

/-- Settles O55: the two outcomes of PCOMP, and the composite entry by entry. -/
theorem pcompComposes : Obligations.PcompComposes := by
  unfold Obligations.PcompComposes
  intro s d a b
  refine ⟨fun ha hb => ?_, fun h => raises_of_error (exec_pcomp_error h d)⟩
  refine ⟨_, exec_pcomp_ok ha hb d, ((SameControl.refl s).setP d _).completed _, rfl, otherP_setP s d _, rfl, rfl, ?_⟩
  have hd : ((s.setP d (compose s.p[a] s.p[b])).finish 0x42#8 0#4).p[d] = compose s.p[a] s.p[b] := getElem_setP_same s d _
  rw [Instr.opcode, hd]
  refine ⟨isBijection_compose ha hb, fun i => ?_⟩
  rw [compose_getElem ha]
  exact Vector.getElem?_eq_getElem (ha.1 i)

end Sys2Proof.Machine

/-! PROOFS. The family of 40_hexacode.md: the hexacode as a linear code of six symbols (R155-R158), the column reduction of a
vector (R151-R154, R167), and why the MOG criterion (R160) and the zero-syndrome test (R192) both accept exactly the Golay code. -/

namespace Sys2Proof.Machine

/-! ## The pattern table and the list of hexacode words -/

/-- The formula of a HEXROM entry (R165) gives R157's last column. -/
theorem hexlWord_eq_listing : ∀ p ≤ 15, hexlWord (BitVec.ofNat 4 p) = hexlListing.getD p 0#32 := by decide

/-- R158's rule and R158's list give the same words. -/
theorem hexSet_perm_listing : hexSet.Perm hexacodeListing := by decide

theorem isHexacode_iff_mem_listing (h : BitVec 12) : isHexacode h = true ↔ h ∈ hexacodeListing := by
  rw [isHexacode, List.contains_iff_mem, hexSet_perm_listing.mem_iff]

/-! ## Words of six symbols -/

/-- Six symbols packed, symbol c at bits 2c+1:2c (R158). -/
def sixSymbols (f : Nat → Sym) : BitVec 12 := f 5 ++ f 4 ++ f 3 ++ f 2 ++ f 1 ++ f 0

theorem extract_sixSymbols (f : Nat → Sym) {c : Nat} (hc : c < 6) : (sixSymbols f).extractLsb' (2 * c) 2 = f c := by
  apply BitVec.eq_of_getLsbD_eq
  intro i hi
  rw [BitVec.getLsbD_extractLsb', sixSymbols]
  simp only [BitVec.getLsbD_append]
  interval_cases c <;> interval_cases i <;> simp

theorem sixSymbols_inj {f g : Nat → Sym} (h : sixSymbols f = sixSymbols g) {c : Nat} (hc : c < 6) : f c = g c := by
  rw [← extract_sixSymbols f hc, h, extract_sixSymbols g hc]

theorem sixSymbols_xor (f g : Nat → Sym) : sixSymbols f ^^^ sixSymbols g = sixSymbols fun c => f c ^^^ g c := by
  have happend : ∀ a b c d e f a' b' c' d' e' f' : Sym,
      (a ++ b ++ c ++ d ++ e ++ f) ^^^ (a' ++ b' ++ c' ++ d' ++ e' ++ f') =
        (a ^^^ a') ++ (b ^^^ b') ++ (c ^^^ c') ++ (d ^^^ d') ++ (e ^^^ e') ++ (f ^^^ f') := by
    simp only [BitVec.xor_append, implies_true]
  exact happend ..

/-! ## The hexacode is linear -/

/-- The symbols of the hexacode word of a, b and c: (a, b, c, φ(1), φ(ω), φ(ω̄)) (R158). -/
def hexacodeSymbol (a b c : Sym) : Nat → Sym
  | 0 => a
  | 1 => b
  | 2 => c
  | 3 => phi a b c 0b01#2
  | 4 => phi a b c 0b10#2
  | _ => phi a b c 0b11#2

theorem isHexacode_iff (h : BitVec 12) : isHexacode h = true ↔ ∃ a b c, h = sixSymbols (hexacodeSymbol a b c) := by
  have hall : ∀ a : Sym, a ∈ symbols := by decide
  have hword : ∀ a b c, hexacodeWord a b c = sixSymbols (hexacodeSymbol a b c) := fun _ _ _ => rfl
  simp [isHexacode, hexSet, hall, hword, eq_comm]

theorem gf4Mul_xor_left : ∀ a b x : Sym, gf4Mul (a ^^^ b) x = gf4Mul a x ^^^ gf4Mul b x := by decide

theorem phi_xor (a b c a' b' c' x : Sym) : phi (a ^^^ a') (b ^^^ b') (c ^^^ c') x = phi a b c x ^^^ phi a' b' c' x := by
  simp only [phi, gf4Add, gf4Mul_xor_left]
  ac_rfl

theorem hexacodeSymbol_xor (a b c a' b' c' : Sym) (i : Nat) :
    hexacodeSymbol (a ^^^ a') (b ^^^ b') (c ^^^ c') i = hexacodeSymbol a b c i ^^^ hexacodeSymbol a' b' c' i := by
  match i with
  | 0 | 1 | 2 => rfl
  | 3 | 4 | n + 5 => exact phi_xor ..

/-- The sum of two hexacode words is one (R159). -/
theorem isHexacode_xor {g h : BitVec 12} (hg : isHexacode g = true) (hh : isHexacode h = true) :
    isHexacode (g ^^^ h) = true := by
  obtain ⟨a, b, c, rfl⟩ := (isHexacode_iff g).mp hg
  obtain ⟨a', b', c', rfl⟩ := (isHexacode_iff h).mp hh
  rw [isHexacode_iff, sixSymbols_xor]
  exact ⟨_, _, _, congrArg sixSymbols (funext fun i => (hexacodeSymbol_xor a b c a' b' c' i).symm)⟩

/-! ## Columns and parities -/

/-- The parity of a weight is linear. -/
theorem parity_xor {n : Nat} (x y : BitVec n) :
    (popcount (x ^^^ y) % 2 == 1) = ((popcount x % 2 == 1) ^^ (popcount y % 2 == 1)) := by
  rw [popcount_xor_mod_two, Nat.add_mod]
  rcases Nat.mod_two_eq_zero_or_one (popcount x) with hx | hx <;>
    rcases Nat.mod_two_eq_zero_or_one (popcount y) with hy | hy <;> rw [hx, hy] <;> rfl

/-- Row r of column c is point 6r + c (R151). -/
theorem getLsbD_colpat (v : Vec) (c : Nat) {r : Nat} (hr : r < 4) : (colpat v c).getLsbD r = v.getLsbD (6 * r + c) := by
  simp only [colpat, BitVec.getLsbD_append]
  interval_cases r <;> simp

/-- A vector is its six columns (R151). -/
theorem eq_zero_of_colpat {v : Vec} (h : ∀ c < 6, colpat v c = 0#4) : v = 0#24 := by
  apply BitVec.eq_of_getLsbD_eq
  intro i hi
  have hbit := getLsbD_colpat v (i % 6) (show i / 6 < 4 by omega)
  rw [Nat.div_add_mod, h _ (Nat.mod_lt _ (by decide)), BitVec.getLsbD_zero] at hbit
  rw [← hbit, BitVec.getLsbD_zero]

/-- A pattern's score is the sum of the labels 1, ω and ω̄ of its rows 1, 2 and 3 (R152). -/
theorem score_eq : ∀ p : BitVec 4, score p =
    (if p.getLsbD 1 = true then 0b01#2 else 0b00#2) ^^^ (if p.getLsbD 2 = true then 0b10#2 else 0b00#2) ^^^
      (if p.getLsbD 3 = true then 0b11#2 else 0b00#2) := by decide

theorem par_eq : ∀ p : BitVec 4, par p = (p.getLsbD 0 ^^ p.getLsbD 1 ^^ p.getLsbD 2 ^^ p.getLsbD 3) := by decide

/-- The score and the parity of a column, from the vector's points (R151-R153). -/
theorem score_colpat (v : Vec) (c : Nat) : score (colpat v c) =
    (if v.getLsbD (6 + c) = true then 0b01#2 else 0b00#2) ^^^ (if v.getLsbD (12 + c) = true then 0b10#2 else 0b00#2) ^^^
      (if v.getLsbD (18 + c) = true then 0b11#2 else 0b00#2) := by
  rw [score_eq, getLsbD_colpat v c (r := 1) (by decide), getLsbD_colpat v c (r := 2) (by decide),
    getLsbD_colpat v c (r := 3) (by decide)]

theorem par_colpat (v : Vec) (c : Nat) :
    par (colpat v c) = (v.getLsbD c ^^ v.getLsbD (6 + c) ^^ v.getLsbD (12 + c) ^^ v.getLsbD (18 + c)) := by
  rw [par_eq, getLsbD_colpat v c (r := 0) (by decide), getLsbD_colpat v c (r := 1) (by decide),
    getLsbD_colpat v c (r := 2) (by decide), getLsbD_colpat v c (r := 3) (by decide), Nat.mul_zero, Nat.zero_add]

/-- The top row is points 0 to 5 (R154). -/
theorem toprow_eq (v : Vec) : toprow v =
    (v.getLsbD 0 ^^ v.getLsbD 1 ^^ v.getLsbD 2 ^^ v.getLsbD 3 ^^ v.getLsbD 4 ^^ v.getLsbD 5) := by
  have hsix : ∀ x : BitVec 6, (popcount x % 2 == 1) =
      (x.getLsbD 0 ^^ x.getLsbD 1 ^^ x.getLsbD 2 ^^ x.getLsbD 3 ^^ x.getLsbD 4 ^^ x.getLsbD 5) := by decide
  simp [toprow, hsix]

/-! ## The MOG criterion is linear -/

theorem colpat_xor (u w : Vec) (c : Nat) : colpat (u ^^^ w) c = colpat u c ^^^ colpat w c := by
  apply BitVec.eq_of_getLsbD_eq
  intro r hr
  simp only [BitVec.getLsbD_xor, getLsbD_colpat _ c hr]

theorem score_xor : ∀ p q : BitVec 4, score (p ^^^ q) = score p ^^^ score q := by decide

theorem par_xor (p q : BitVec 4) : par (p ^^^ q) = (par p ^^ par q) := parity_xor p q

theorem toprow_xor (u w : Vec) : toprow (u ^^^ w) = (toprow u ^^ toprow w) := by
  rw [toprow, BitVec.extractLsb'_xor, parity_xor]
  rfl

/-- The packed scores (R160, R167). -/
theorem columnScores_eq (v : Vec) : columnScores v = sixSymbols fun c => score (colpat v c) := rfl

theorem columnScores_xor (u w : Vec) : columnScores (u ^^^ w) = columnScores u ^^^ columnScores w := by
  simp only [columnScores_eq, sixSymbols_xor, colpat_xor, score_xor]

theorem paritiesAgree_iff (v : Vec) : paritiesAgree v = true ↔ ∀ c < 6, par (colpat v c) = toprow v := by
  simp [paritiesAgree]

theorem paritiesAgree_xor {u w : Vec} (hu : paritiesAgree u = true) (hw : paritiesAgree w = true) :
    paritiesAgree (u ^^^ w) = true := by
  rw [paritiesAgree_iff] at *
  intro c hc
  rw [colpat_xor, par_xor, toprow_xor, hu c hc, hw c hc]

theorem mogMember_iff (v : Vec) : mogMember v = true ↔ paritiesAgree v = true ∧ isHexacode (columnScores v) = true := by
  rw [mogMember, Bool.and_eq_true]

theorem mogMember_xor (u w : Vec) (hu : mogMember u = true) (hw : mogMember w = true) : mogMember (u ^^^ w) = true := by
  rw [mogMember_iff] at *
  obtain ⟨hparu, hhexu⟩ := hu
  obtain ⟨hparw, hhexw⟩ := hw
  exact ⟨paritiesAgree_xor hparu hparw, columnScores_xor u w ▸ isHexacode_xor hhexu hhexw⟩

/-! ## The points of INFO determine a codeword -/

/-- The basis is the identity at INFO (R182). -/
theorem getLsbD_basis_infoSet : ∀ j k : Fin 12, basis[j].getLsbD infoSet[k] = decide (j = k) := by decide

/-- Adding the basis words of some data bits changes point INFO[k] where data bit k is one of them and is 1. -/
theorem getLsbD_foldl_basis (d : BitVec 12) (k : Fin 12) {l : List (Fin 12)} (hl : l.Nodup) (acc : Vec) :
    (l.foldl (fun acc (j : Fin 12) => if d.getLsbD j then acc ^^^ basis[j] else acc) acc).getLsbD infoSet[k] =
      (acc.getLsbD infoSet[k] ^^ (decide (k ∈ l) && d.getLsbD k)) := by
  induction l generalizing acc with
  | nil => simp
  | cons j l ih =>
    obtain ⟨hj, hl⟩ := List.nodup_cons.mp hl
    rw [List.foldl_cons, ih hl]
    by_cases hjk : j = k
    · subst hjk
      cases hd : d.getLsbD j
      · rw [if_neg (by simp), Bool.and_false, Bool.and_false]
      · rw [if_pos rfl, BitVec.getLsbD_xor, getLsbD_basis_infoSet]
        simp [hj]
    · have hmem : k ∈ j :: l ↔ k ∈ l := by simp [Ne.symm hjk]
      rw [decide_eq_decide.mpr hmem]
      split
      · rw [BitVec.getLsbD_xor, getLsbD_basis_infoSet, decide_eq_false hjk, Bool.xor_false]
      · rfl

/-- The codeword of some data holds the data at INFO (R182, R183). -/
theorem getLsbD_golayEncode_infoSet (d : BitVec 12) (k : Fin 12) : (golayEncode d).getLsbD infoSet[k] = d.getLsbD k := by
  rw [golayEncode, getLsbD_foldl_basis d k (List.nodup_finRange 12)]
  simp

theorem getLsbD_gather (place : Vector Nat 12) (v : Vec) (k : Fin 12) :
    (gather place v).getLsbD k = v.getLsbD place[k] := by
  rw [gather, getLsbD_ofBits]
  simp

/-- A property that holds of the basis words and of every sum of two vectors that have it holds of every codeword (R181). -/
theorem golayEncode_closed {p : Vec → Prop} (hxor : ∀ u w, p u → p w → p (u ^^^ w)) (hbasis : ∀ k : Fin 12, p basis[k])
    (d : BitVec 12) : p (golayEncode d) := by
  have fold : ∀ (l : List (Fin 12)) acc, p acc →
      p (l.foldl (fun acc (k : Fin 12) => if d.getLsbD k then acc ^^^ basis[k] else acc) acc) := by
    intro l
    induction l with
    | nil => exact fun _ hacc => hacc
    | cons k l ih =>
      intro acc hacc
      rw [List.foldl_cons]
      split
      · exact ih _ (hxor _ _ hacc (hbasis k))
      · exact ih _ hacc
  have hzero : p 0#24 := by simpa using hxor _ _ (hbasis 0) (hbasis 0)
  exact fold _ _ hzero

/-- No point of INFO is in the set (R182). -/
def InfoClear (v : Vec) : Prop := ∀ k : Fin 12, v.getLsbD infoSet[k] = false

/-- A linear test that the basis words pass, and that no set outside INFO passes but the empty one, accepts exactly the code:
adding the codeword with the same points at INFO clears them (R181, R182). -/
theorem test_iff_inCode {p : Vec → Prop} (hxor : ∀ u w, p u → p w → p (u ^^^ w)) (hbasis : ∀ k : Fin 12, p basis[k])
    (hzero : ∀ {w}, InfoClear w → p w → w = 0#24) (v : Vec) : p v ↔ InCode v := by
  have hcode := golayEncode_closed hxor hbasis
  constructor
  · intro hv
    have hclear : InfoClear (v ^^^ golayEncode (gather infoSet v)) := fun k => by
      rw [BitVec.getLsbD_xor, getLsbD_golayEncode_infoSet, getLsbD_gather, Bool.xor_self]
    exact ⟨_, BitVec.xor_eq_zero_iff.mp (hzero hclear (hxor _ _ hv (hcode _)))⟩
  · rintro ⟨d, rfl⟩
    exact hcode d

/-! ## The MOG criterion accepts exactly the code -/

theorem mogMember_basis : ∀ k : Fin 12, mogMember basis[k] = true := by decide +kernel

/-! What an even column with a clear top row is, from the rows of it that may hold a point. -/

theorem pattern_eq_zero : ∀ p : BitVec 4, p.getLsbD 0 = false → par p = false → score p = 0#2 → p = 0#4 := by decide
theorem score_of_row_three : ∀ p : BitVec 4, p.getLsbD 0 = false → p.getLsbD 1 = false → p.getLsbD 2 = false →
    par p = false → score p = 0#2 := by decide
theorem score_of_rows_two_three : ∀ p : BitVec 4, p.getLsbD 0 = false → p.getLsbD 1 = false →
    par p = false → (score p).getLsbD 1 = false := by decide

/-- A hexacode word (0, b, 0, ..) with b and φ(ω) = b·ω both 0 or 1 is zero. -/
theorem eq_zero_of_phi : ∀ b : Sym, b.getLsbD 1 = false → (phi 0#2 b 0#2 0b10#2).getLsbD 1 = false → b = 0#2 := by decide

/-- Without the points of INFO the columns 0 and 2 have no row but 3, and the columns 1 and 4 no rows but 2 and 3. With even
columns that leaves only the zero hexacode word, and so no point. -/
theorem eq_zero_of_mogMember {v : Vec} (hv : InfoClear v) (hm : mogMember v = true) : v = 0#24 := by
  obtain ⟨hpar, hhex⟩ := (mogMember_iff v).mp hm
  have hclear : ∀ {r c}, r < 4 → 6 * r + c ∈ infoSet.toList → (colpat v c).getLsbD r = false := by
    intro r c hr hmem
    obtain ⟨k, hk, hpoint⟩ := List.getElem_of_mem hmem
    rw [getLsbD_colpat v c hr, ← hpoint]
    exact hv ⟨k, hk⟩
  have hrow : ∀ c < 6, (colpat v c).getLsbD 0 = false :=
    fun c hc => hclear (by decide) (by interval_cases c <;> decide)
  have htop : toprow v = false := by
    have hbit : ∀ c < 6, v.getLsbD c = false := fun c hc => by
      rw [← hrow c hc, getLsbD_colpat v c (by decide), Nat.mul_zero, Nat.zero_add]
    rw [toprow_eq, hbit 0, hbit 1, hbit 2, hbit 3, hbit 4, hbit 5] <;> decide
  have heven : ∀ c < 6, par (colpat v c) = false := fun c hc => ((paritiesAgree_iff v).mp hpar c hc).trans htop
  obtain ⟨a, b, c, hword⟩ := (isHexacode_iff _).mp hhex
  have hscore : ∀ i < 6, score (colpat v i) = hexacodeSymbol a b c i := fun i hi =>
    sixSymbols_inj ((columnScores_eq v).symm.trans hword) hi
  have hrow3 : ∀ i, i = 0 ∨ i = 2 → score (colpat v i) = 0#2 := by
    rintro i (rfl | rfl) <;>
      exact score_of_row_three _ (hrow _ (by decide)) (hclear (by decide) (by decide)) (hclear (by decide) (by decide))
        (heven _ (by decide))
  have hrows23 : ∀ i, i = 1 ∨ i = 4 → (score (colpat v i)).getLsbD 1 = false := by
    rintro i (rfl | rfl) <;>
      exact score_of_rows_two_three _ (hrow _ (by decide)) (hclear (by decide) (by decide)) (heven _ (by decide))
  obtain rfl : a = 0#2 := (hscore 0 (by decide)).symm.trans (hrow3 0 (.inl rfl))
  obtain rfl : c = 0#2 := (hscore 2 (by decide)).symm.trans (hrow3 2 (.inr rfl))
  obtain rfl : b = 0#2 := by
    have hb := hrows23 1 (.inl rfl)
    have hphi := hrows23 4 (.inr rfl)
    rw [hscore _ (by decide)] at hb hphi
    exact eq_zero_of_phi b hb hphi
  have hzero : ∀ i < 6, hexacodeSymbol 0#2 0#2 0#2 i = 0#2 := by decide
  exact eq_zero_of_colpat fun i hi => pattern_eq_zero _ (hrow i hi) (heven i hi) ((hscore i hi).trans (hzero i hi))

/-- The MOG criterion is membership in the code (R160, R181). -/
theorem mogMember_iff_inCode (v : Vec) : mogMember v = true ↔ InCode v :=
  test_iff_inCode mogMember_xor mogMember_basis eq_zero_of_mogMember v

/-! ## The zero-syndrome test accepts exactly the code -/

/-- u and w have an odd number of points in common: what a bit of the syndrome says (R184). -/
def oddMeet (u w : Vec) : Bool := popcount (u &&& w) % 2 == 1

theorem getLsbD_syndrome (v : Vec) (k : Fin 12) : (syndrome v).getLsbD k = oddMeet v basis[k] := by
  rw [syndrome, getLsbD_ofBits]
  simp [oddMeet]

theorem oddMeet_xor (u w w' : Vec) : oddMeet u (w ^^^ w') = (oddMeet u w ^^ oddMeet u w') := by
  have hand : u &&& (w ^^^ w') = (u &&& w) ^^^ (u &&& w') := by
    ext i
    simp [Bool.and_xor_distrib_left]
  rw [oddMeet, hand, parity_xor]
  rfl

/-- A point is one point. -/
theorem popcount_delta {i : Nat} (hi : i < 24) : popcount (delta i) = 1 := by
  have h := popcount_delta_or (e := 0#24) hi BitVec.getLsbD_zero
  rwa [BitVec.or_zero, show popcount 0#24 = 0 by decide] at h

theorem oddMeet_delta (u : Vec) {i : Nat} (hi : i < 24) : oddMeet u (delta i) = u.getLsbD i := by
  have hmeet : u &&& delta i = if u.getLsbD i = true then delta i else 0#24 := by
    apply BitVec.eq_of_getLsbD_eq
    intro j hj
    rw [BitVec.getLsbD_and, getLsbD_delta]
    by_cases hij : i = j
    · subst hij
      cases u.getLsbD i <;> simp [hi]
    · split <;> simp [hij]
  rw [oddMeet, hmeet]
  cases u.getLsbD i
  · rw [if_neg Bool.false_ne_true]
    decide
  · rw [if_pos rfl, popcount_delta hi]
    decide

theorem isCodeword_xor (u w : Vec) (hu : isCodeword u = true) (hw : isCodeword w = true) :
    isCodeword (u ^^^ w) = true := by
  rw [isCodeword, beq_iff_eq] at *
  rw [syndrome_xor, hu, hw, BitVec.xor_self]

/-- The basis words meet each other and themselves evenly (R181 'Self-dual'). -/
theorem isCodeword_basis : ∀ k : Fin 12, isCodeword basis[k] = true := by decide +kernel

/-- A vector with syndrome 0 meets every codeword evenly (R184). -/
theorem oddMeet_golayEncode {v : Vec} (h : isCodeword v = true) (d : BitVec 12) : oddMeet v (golayEncode d) = false := by
  apply golayEncode_closed (p := fun c => oddMeet v c = false)
  · intro c c' hc hc'
    rw [oddMeet_xor, hc, hc', Bool.xor_self]
  · intro k
    rw [← getLsbD_syndrome, beq_iff_eq.mp h, BitVec.getLsbD_zero]

/-- Every point is in INFO or in PAR (R182). -/
theorem infoSet_or_parSet : ∀ i < 24, (∃ k : Fin 12, i = infoSet[k]) ∨ ∃ k : Fin 12, i = parSet[k] := by decide

theorem parSet_lt : ∀ j : Fin 12, parSet[j] < 24 := by decide
theorem parSet_inj : ∀ j k : Fin 12, parSet[j] = parSet[k] ↔ j = k := by decide

/-- The codeword of a row of Ai has the one point PAR[j] of PAR (R188). -/
theorem getLsbD_golayEncode_stageAi : ∀ j k : Fin 12, (golayEncode stageAi[j]).getLsbD parSet[k] = decide (j = k) := by
  decide +kernel

/-- Outside INFO the set meets the codeword of Ai[j] in the point PAR[j] or in none, and evenly: so in none. -/
theorem eq_zero_of_isCodeword {v : Vec} (hv : InfoClear v) (h : isCodeword v = true) : v = 0#24 := by
  have hpar : ∀ j : Fin 12, v.getLsbD parSet[j] = false := by
    intro j
    have hmeet : v &&& golayEncode stageAi[j] = v &&& delta parSet[j] := by
      apply BitVec.eq_of_getLsbD_eq
      intro i hi
      rw [BitVec.getLsbD_and, BitVec.getLsbD_and]
      rcases infoSet_or_parSet i hi with ⟨k, rfl⟩ | ⟨k, rfl⟩
      · rw [hv k, Bool.false_and, Bool.false_and]
      · rw [getLsbD_golayEncode_stageAi, getLsbD_delta]
        simp only [parSet_inj, parSet_lt, and_true]
    rw [← oddMeet_delta v (parSet_lt j), oddMeet, ← hmeet]
    exact oddMeet_golayEncode h stageAi[j]
  apply BitVec.eq_of_getLsbD_eq
  intro i hi
  rcases infoSet_or_parSet i hi with ⟨k, rfl⟩ | ⟨k, rfl⟩
  · rw [hv k, BitVec.getLsbD_zero]
  · rw [hpar k, BitVec.getLsbD_zero]

/-- The zero-syndrome test is membership in the code (R184, R192). -/
theorem isCodeword_iff_inCode (v : Vec) : isCodeword v = true ↔ InCode v :=
  test_iff_inCode isCodeword_xor isCodeword_basis eq_zero_of_isCodeword v

/-! ## The fields of HEXS's result (R167) -/

theorem getLsbD_hexsWord_low (v : Vec) {i : Nat} (hi : i < 12) : (hexsWord v).getLsbD i = (columnScores v).getLsbD i := by
  simp only [hexsWord, BitVec.getLsbD_append]
  simp [hi]

theorem extract_hexsWord_scores (v : Vec) : (hexsWord v).extractLsb' 0 12 = columnScores v := by
  apply BitVec.eq_of_getLsbD_eq
  intro i hi
  rw [BitVec.getLsbD_extractLsb', Nat.zero_add, getLsbD_hexsWord_low v hi, decide_eq_true hi, Bool.true_and]

theorem extract_hexsWord_score (v : Vec) {c : Nat} (hc : c < 6) :
    (hexsWord v).extractLsb' (2 * c) 2 = score (colpat v c) := by
  rw [← extract_sixSymbols (fun c => score (colpat v c)) hc, ← columnScores_eq]
  apply BitVec.eq_of_getLsbD_eq
  intro i hi
  rw [BitVec.getLsbD_extractLsb', BitVec.getLsbD_extractLsb', getLsbD_hexsWord_low v (by omega)]

theorem getLsbD_hexsWord_parity (v : Vec) {c : Nat} (hc : c < 6) :
    (hexsWord v).getLsbD (12 + c) = par (colpat v c) := by
  simp only [hexsWord, BitVec.getLsbD_append, columnParities, getLsbD_ofBits]
  simp [hc]

/-- The bits t, hv, pc and hv & pc. -/
theorem hexsWord_tests (v : Vec) : (hexsWord v).getLsbD 18 = toprow v ∧
    (hexsWord v).getLsbD 19 = isHexacode (columnScores v) ∧ (hexsWord v).getLsbD 20 = paritiesAgree v ∧
    (hexsWord v).getLsbD 21 = mogMember v := by
  simp only [hexsWord, BitVec.getLsbD_append]
  simp

theorem extract_hexsWord_high (v : Vec) : (hexsWord v).extractLsb' 22 10 = 0#10 := by
  apply BitVec.eq_of_getLsbD_eq
  intro i hi
  rw [BitVec.getLsbD_extractLsb']
  simp only [hexsWord, BitVec.getLsbD_append]
  interval_cases i <;> simp

/-! ## The obligations -/

/-- A command that assigns SRES alone completes with it, and leaves V, P and GRID (R322, R324). -/
theorem completed_of_setSres {i : Instr} {s : State} {x : Word}
    (h : exec i s = complete i.opcode (.ok (s.setSres x)) s) :
    ∃ t, exec i s = .next t ∧ Completed i.opcode 0#4 s t ∧ t.sres = x ∧ t.v = s.v ∧ t.p = s.p ∧ t.grid = s.grid :=
  ⟨_, h, ((SameControl.refl s).setSres x).completed _, rfl, rfl, rfl, rfl⟩

theorem exec_hexl_ok {p : Nat} (h : p ≤ 15) (s : State) :
    exec (.hexl p) s = complete (Instr.hexl p).opcode (.ok (s.setSres (hexlWord (BitVec.ofNat 4 p)))) s := by
  simp only [exec, execHexl, if_neg (Nat.not_lt.mpr h)]

theorem exec_hexl_error {p : Nat} (h : p > 15) (s : State) :
    exec (.hexl p) s = complete (Instr.hexl p).opcode (.error .invalidPattern) s := by
  simp only [exec, execHexl, if_pos h]

/-- Settles O30: the table's 16 entries, and the range check. -/
theorem hexlLooksUpThePattern : Obligations.HexlLooksUpThePattern := by
  unfold Obligations.HexlLooksUpThePattern
  intro s p
  refine ⟨fun h => ?_, fun h => raises_of_error (exec_hexl_error h s)⟩
  rw [← hexlWord_eq_listing p h]
  exact completed_of_setSres (exec_hexl_ok h s)

/-- Settles O31: the words that HEXV accepts are the listed ones. -/
theorem hexvTestsTheHexacode : Obligations.HexvTestsTheHexacode := by
  unfold Obligations.HexvTestsTheHexacode
  intro s h
  simp only [← isHexacode_iff_mem_listing]
  exact completed_of_setSres rfl

/-- Settles O32 field by field. -/
theorem hexsReducesTheColumns : Obligations.HexsReducesTheColumns := by
  unfold Obligations.HexsReducesTheColumns
  intro s a
  obtain ⟨t, ht, hc, hsres, hv, hp, hg⟩ := completed_of_setSres (i := .hexs a) (s := s) rfl
  obtain ⟨htop, hhex, hagree, hmog⟩ := hexsWord_tests (s.getV a)
  refine ⟨t, ht, hc, hv, hp, hg, ?_⟩
  rw [hsres, htop, hhex, hagree, hmog]
  refine ⟨fun c => ?_, fun c => ?_, toprow_eq _, ?_, ?_, Bool.and_comm _ _, extract_hexsWord_high _⟩
  · exact (extract_hexsWord_score _ c.isLt).trans (score_colpat _ _)
  · exact (getLsbD_hexsWord_parity _ c.isLt).trans (par_colpat _ _)
  · rw [extract_hexsWord_scores, isHexacode_iff_mem_listing]
  · rw [paritiesAgree_iff, Fin.forall_iff]
    exact forall₂_congr fun c hc => by rw [getLsbD_hexsWord_parity _ hc]

/-- Settles O33: both tests are membership in the code. -/
theorem mogCriterionIsTheGolayCode : Obligations.MogCriterionIsTheGolayCode := by
  unfold Obligations.MogCriterionIsTheGolayCode
  intro s a
  obtain ⟨t, ht, -, htsres, -⟩ := completed_of_setSres (i := .hexs a) (s := s) rfl
  obtain ⟨u, hu, -, husres, -⟩ := completed_of_setSres (i := .iscw a) (s := s) rfl
  obtain ⟨-, -, -, hmog⟩ := hexsWord_tests (s.getV a)
  refine ⟨t, u, ht, hu, ?_, ?_⟩
  · rw [htsres, hmog]
    exact mogMember_iff_inCode _
  · have htests : mogMember (s.getV a) = isCodeword (s.getV a) :=
      Bool.eq_iff_iff.mpr ((mogMember_iff_inCode _).trans (isCodeword_iff_inCode _).symm)
    rw [htsres, husres, hmog, htests]
    cases isCodeword (s.getV a) <;> rfl

end Sys2Proof.Machine

/-! PROOFS. The family of 41_golay.md: the leader of a coset by its own form (R185), why every coset has exactly one vector of that
form, that the search and the two stages of R188 both find it, and the result word of a decode (R195). -/

namespace Sys2Proof.Machine

/-! ## Sums of vectors -/

theorem xor_xor_cancel_right {n : Nat} (a b : BitVec n) : a ^^^ b ^^^ b = a := by
  rw [BitVec.xor_assoc, BitVec.xor_self, BitVec.xor_zero]
theorem xor_xor_cancel_left {n : Nat} (a b : BitVec n) : a ^^^ b ^^^ a = b := by
  rw [BitVec.xor_comm a b, xor_xor_cancel_right]

/-- A linear function sends 0 to 0. -/
theorem map_zero_of_map_xor {n m : Nat} {g : BitVec n → BitVec m} (hg : ∀ u w, g (u ^^^ w) = g u ^^^ g w) :
    g 0#n = 0#m := by
  have h := hg 0#n 0#n
  rwa [BitVec.xor_self, BitVec.xor_self] at h

/-! ## Weights -/

/-- What a sum loses of the two weights: the common points, twice (R10). -/
theorem bitCount_xor_add (x y n : Nat) :
    bitCount (x ^^^ y) n + 2 * bitCount (x &&& y) n = bitCount x n + bitCount y n := by
  induction n generalizing x y with
  | zero => rfl
  | succ n ih =>
    have hxor : (x ^^^ y) / 2 = x / 2 ^^^ y / 2 := Nat.xor_div_two
    have hand : (x &&& y) / 2 = x / 2 &&& y / 2 := Nat.and_div_two
    have hbit : (x ^^^ y) % 2 + 2 * ((x &&& y) % 2) = x % 2 + y % 2 := by
      rw [Nat.xor_mod_two_eq, show (x &&& y) % 2 = x % 2 &&& y % 2 from Nat.and_mod_two_pow (n := 1)]
      rcases Nat.mod_two_eq_zero_or_one x with hx | hx <;> rcases Nat.mod_two_eq_zero_or_one y with hy | hy <;>
        simp [Nat.add_mod, hx, hy]
    have hrest := ih (x / 2) (y / 2)
    simp only [bitCount, hxor, hand]
    omega

theorem popcount_xor_add {n : Nat} (x y : BitVec n) :
    popcount (x ^^^ y) + 2 * popcount (x &&& y) = popcount x + popcount y := by
  simp only [popcount, BitVec.toNat_xor, BitVec.toNat_and, bitCount_xor_add]

/-- A vector with a point is not empty. -/
theorem popcount_pos_of_getLsbD {n : Nat} {x : BitVec n} {i : Nat} (h : x.getLsbD i = true) : 0 < popcount x := by
  refine Nat.pos_of_ne_zero fun h0 => ?_
  rw [eq_zero_of_popcount h0, BitVec.getLsbD_zero] at h
  cases h

/-! ## Cosets -/

/-- No nonempty codeword has fewer than 8 points (R181). -/
theorem eq_zero_of_inCode {c : Vec} (hc : InCode c) (hw : popcount c < 8) : c = 0#24 := by
  have hcheck := inCode_all (p := fun c => c == 0#24 || decide (8 ≤ popcount c)) (by decide +kernel) hc
  have hnot : ¬ 8 ≤ popcount c := by omega
  simpa [hnot] using hcheck

/-- Two vectors are in one coset just when their syndromes agree (R184). -/
theorem syndrome_eq_iff (v e : Vec) : syndrome v = syndrome e ↔ InCode (v ^^^ e) := by
  rw [← isCodeword_iff_inCode, isCodeword, beq_iff_eq, syndrome_xor, BitVec.xor_eq_zero_iff]

/-- A leader's own form (R185): at most 3 points, or 4 with point 0 among them. -/
def LeaderForm (e : Vec) : Prop := popcount e ≤ 3 ∨ popcount e = 4 ∧ e.getLsbD 0 = true

theorem LeaderForm.popcount_le {e : Vec} (h : LeaderForm e) : popcount e ≤ 4 := by
  rcases h with h | ⟨h, -⟩ <;> omega

/-- A coset has at most one vector of that form: two differ in at most 7 points (R185). -/
theorem LeaderForm.unique {e e' : Vec} (h : LeaderForm e) (h' : LeaderForm e') (hs : syndrome e = syndrome e') :
    e = e' := by
  have hadd := popcount_xor_add e e'
  have hw : popcount (e ^^^ e') < 8 := by
    rcases h with h | ⟨h, h0⟩ <;> rcases h' with h' | ⟨h', h0'⟩
    · omega
    · omega
    · omega
    · have hcommon : 0 < popcount (e &&& e') := popcount_pos_of_getLsbD (i := 0) (by simp [h0, h0'])
      omega
  exact BitVec.xor_eq_zero_iff.mp (eq_zero_of_inCode ((syndrome_eq_iff e e').mp hs) hw)

/-- A vector of that form is the leader of every vector in its coset (R185). -/
theorem LeaderForm.isLeader {v e : Vec} (h : LeaderForm e) (hs : syndrome v = syndrome e) : IsLeader v e := by
  refine ⟨(syndrome_eq_iff v e).mp hs, fun c hc => ?_, fun h4 => ?_⟩
  · by_contra hlt
    have hle := h.popcount_le
    have hform : LeaderForm (v ^^^ c) := .inl (by omega)
    have hcoset : syndrome (v ^^^ c) = syndrome v := by
      rwa [syndrome_eq_iff, xor_xor_cancel_left]
    rw [hform.unique h (hcoset.trans hs)] at hlt
    omega
  · rcases h with h | ⟨-, h0⟩
    · omega
    · exact h0

/-- Without point 0 a vector that holds it has one point less. -/
theorem popcount_xor_delta_of_mem {e : Vec} (h0 : e.getLsbD 0 = true) : popcount (e ^^^ delta 0) + 1 = popcount e := by
  have hcommon : e &&& delta 0 = delta 0 := by
    apply BitVec.eq_of_getLsbD_eq
    intro j _
    rw [BitVec.getLsbD_and, getLsbD_delta]
    by_cases hj : 0 = j
    · rw [← hj, h0, Bool.true_and]
    · simp [hj]
  have hadd := popcount_xor_add e (delta 0)
  rw [hcommon, popcount_delta (by decide)] at hadd
  omega

/-- The vectors of that form are those with at most 3 points, with point 0 put in or taken out of some (R185, R188). -/
theorem leaderForm_xor_delta {e : Vec} (h : popcount e ≤ 3) : LeaderForm (e ^^^ delta 0) := by
  have hadd := popcount_xor_add e (delta 0)
  rw [popcount_delta (by decide)] at hadd
  cases h0 : e.getLsbD 0 with
  | true => exact .inl (by have := popcount_xor_delta_of_mem h0; omega)
  | false =>
    by_cases h3 : popcount (e ^^^ delta 0) ≤ 3
    · exact .inl h3
    · exact .inr ⟨by omega, by rw [BitVec.getLsbD_xor, h0, getLsbD_delta]; decide⟩

/-! ## Every coset has a leader: the vectors of a leader's form are as many as the syndromes (R184, R185) -/

/-- The vector of a set of points. -/
def pointSet (S : Finset Nat) : Vec := ofBits 24 fun i => decide (i ∈ S)

theorem getLsbD_pointSet (S : Finset Nat) {i : Nat} (hi : i < 24) : (pointSet S).getLsbD i = decide (i ∈ S) := by
  rw [pointSet, getLsbD_ofBits, decide_eq_true hi, Bool.true_and]

theorem popcount_pointSet_le (S : Finset Nat) : popcount (pointSet S) ≤ S.card := by
  rw [popcount_eq_countP, List.countP_eq_length_filter, ← List.toFinset_card_of_nodup (List.nodup_range.filter _)]
  refine Finset.card_le_card fun i hi => ?_
  have hbit := (List.mem_filter.mp (List.mem_toFinset.mp hi)).2
  rw [pointSet, getLsbD_ofBits, Bool.and_eq_true] at hbit
  exact of_decide_eq_true hbit.2

/-- At most 3 points other than point 0, and whether point 0 is put in. -/
def leaderChoices : Finset (Bool × Finset Nat) :=
  Finset.univ ×ˢ (Finset.range 4).biUnion fun k => Finset.powersetCard k (Finset.Ico 1 24)

theorem mem_leaderChoices {q : Bool × Finset Nat} :
    q ∈ leaderChoices ↔ q.2.card ≤ 3 ∧ q.2 ⊆ Finset.Ico 1 24 := by
  simp only [leaderChoices, Finset.mem_product, Finset.mem_univ, Finset.mem_biUnion, Finset.mem_range,
    Finset.mem_powersetCard, true_and]
  constructor
  · rintro ⟨k, hk, hsub, rfl⟩
    exact ⟨by omega, hsub⟩
  · rintro ⟨hcard, hsub⟩
    exact ⟨_, by omega, hsub, rfl⟩

/-- 2 · (1 + 23 + 253 + 1771) choices. -/
theorem card_leaderChoices : leaderChoices.card = 4096 := by
  have hdisjoint : ((Finset.range 4 : Finset Nat) : Set Nat).PairwiseDisjoint
      fun k => Finset.powersetCard k (Finset.Ico 1 24) :=
    (Finset.pairwise_disjoint_powersetCard _).set_pairwise _
  rw [leaderChoices, Finset.card_product, Finset.card_biUnion hdisjoint]
  simp only [Finset.card_powersetCard, Nat.card_Ico]
  decide

/-- The vector of a choice. -/
def chosen (q : Bool × Finset Nat) : Vec := if q.1 = true then pointSet q.2 ^^^ delta 0 else pointSet q.2

theorem getLsbD_chosen (q : Bool × Finset Nat) {i : Nat} (hi : i < 24) :
    (chosen q).getLsbD i = (decide (i ∈ q.2) ^^ (q.1 && decide (0 = i))) := by
  cases h : q.1 <;> simp only [chosen, h, if_true, if_false, Bool.false_eq_true, BitVec.getLsbD_xor, getLsbD_pointSet _ hi,
    getLsbD_delta, hi, and_true, Bool.false_and, Bool.true_and, Bool.xor_false]

theorem chosen_injOn : Set.InjOn chosen leaderChoices := by
  intro q hq q' hq' h
  have hbits : ∀ i < 24, (decide (i ∈ q.2) ^^ (q.1 && decide (0 = i))) = (decide (i ∈ q'.2) ^^ (q'.1 && decide (0 = i))) :=
    fun i hi => by rw [← getLsbD_chosen q hi, h, getLsbD_chosen q' hi]
  have hsub := (mem_leaderChoices.mp hq).2
  have hsub' := (mem_leaderChoices.mp hq').2
  have hzero : ∀ {S : Finset Nat}, S ⊆ Finset.Ico 1 24 → 0 ∉ S := fun hS h0 => by simpa using hS h0
  refine Prod.ext ?_ (Finset.ext fun i => ?_)
  · simpa [hzero hsub, hzero hsub'] using hbits 0 (by decide)
  · by_cases hi : i ∈ Finset.Ico 1 24
    · obtain ⟨hpos, hlt⟩ := Finset.mem_Ico.mp hi
      simpa [show 0 ≠ i by omega] using hbits i hlt
    · exact iff_of_false (fun h => hi (hsub h)) fun h => hi (hsub' h)

theorem leaderForm_chosen {q : Bool × Finset Nat} (hq : q ∈ leaderChoices) : LeaderForm (chosen q) := by
  have hcard := (popcount_pointSet_le q.2).trans (mem_leaderChoices.mp hq).1
  rw [chosen]
  split
  · exact leaderForm_xor_delta hcard
  · exact .inl hcard

/-- Every coset has a vector of a leader's form (R184 'All 4096 syndrome values occur', R185): the 4096 choices have different
syndromes. -/
theorem exists_leaderForm (v : Vec) : ∃ e, LeaderForm e ∧ syndrome v = syndrome e := by
  have hsurj : Set.SurjOn (fun q => (syndrome (chosen q)).toNat) leaderChoices (Finset.range 4096) := by
    refine Finset.surjOn_of_injOn_of_card_le _ (fun q _ => ?_) (fun q hq q' hq' h => ?_) ?_
    · exact Finset.mem_coe.mpr (Finset.mem_range.mpr (syndrome (chosen q)).isLt)
    · exact chosen_injOn hq hq'
        ((leaderForm_chosen hq).unique (leaderForm_chosen hq') (BitVec.eq_of_toNat_eq h))
    · rw [card_leaderChoices, Finset.card_range]
  obtain ⟨q, hq, h⟩ := hsurj (Finset.mem_coe.mpr (Finset.mem_range.mpr (syndrome v).isLt))
  exact ⟨chosen q, leaderForm_chosen hq, BitVec.eq_of_toNat_eq h.symm⟩

/-! ## The search finds the leader -/

/-- Every set of points is listed, and every set without point 0 in the tail. -/
theorem listed_checkColumns (e : Vec) : Listed e checkColumns := by
  intro j hj
  rw [show checkColumns.map Prod.fst = List.range 24 by decide]
  exact List.mem_range.mpr (BitVec.lt_of_getLsbD hj)
theorem listed_tail_iff (e : Vec) : Listed e checkColumns.tail ↔ e.getLsbD 0 = false := by
  rw [Listed, show checkColumns.tail.map Prod.fst = List.range' 1 23 by decide]
  constructor
  · intro h
    by_contra h0
    simpa using h 0 (by simpa using h0)
  · intro h0 j hj
    have hlt := BitVec.lt_of_getLsbD hj
    have hne : j ≠ 0 := by
      rintro rfl
      rw [h0] at hj
      cases hj
    exact List.mem_range'_1.mpr ⟨by omega, by omega⟩

/-- The leader is what the first successful search of the four finds, else what the search for a tetrad finds. -/
theorem leaderOf_cases (c : Nat) : (∃ k ≤ 3, findError k c checkColumns = some (leaderOf c)) ∨
    (∀ k ≤ 3, findError k c checkColumns = none) ∧
      leaderOf c = ((findError 3 (c ^^^ checkColumn0) checkColumns.tail).map (delta 0 ||| ·)).getD 0#24 := by
  cases h0 : findError 0 c checkColumns with
  | some e => exact .inl ⟨0, by decide, by simp [leaderOf, h0]⟩
  | none =>
    cases h1 : findError 1 c checkColumns with
    | some e => exact .inl ⟨1, by decide, by simp [leaderOf, h0, h1]⟩
    | none =>
      cases h2 : findError 2 c checkColumns with
      | some e => exact .inl ⟨2, by decide, by simp [leaderOf, h0, h1, h2]⟩
      | none =>
        cases h3 : findError 3 c checkColumns with
        | some e => exact .inl ⟨3, by decide, by simp [leaderOf, h0, h1, h2, h3]⟩
        | none =>
          refine .inr ⟨fun k hk => ?_, by simp [leaderOf, h0, h1, h2, h3]⟩
          interval_cases k <;> assumption

/-- The search for a tetrad finds three points beside point 0, where there is such a tetrad. -/
theorem findError_tetrad {v e : Vec} (h4 : popcount e = 4) (h0 : e.getLsbD 0 = true) (hs : syndrome v = syndrome e) :
    ∃ f, findError 3 ((syndrome v).toNat ^^^ checkColumn0) checkColumns.tail = some f ∧
      LeaderForm (delta 0 ||| f) ∧ syndrome v = syndrome (delta 0 ||| f) := by
  have hcols : Columns checkColumns.tail := Columns.tail (q := (0, 0x001)) checkColumns_columns
  have hcol : (syndrome v).toNat ^^^ checkColumn0 = (syndrome (v ^^^ delta 0)).toNat := by
    rw [syndrome_xor, BitVec.toNat_xor, checkColumn0_eq]
  rw [hcol]
  cases hf : findError 3 (syndrome (v ^^^ delta 0)).toNat checkColumns.tail with
  | none =>
    have hlist : Listed (e ^^^ delta 0) checkColumns.tail := (listed_tail_iff _).mpr (by
      rw [BitVec.getLsbD_xor, h0, getLsbD_delta]; decide)
    have h3 : popcount (e ^^^ delta 0) = 3 := by have := popcount_xor_delta_of_mem h0; omega
    exact absurd (by rw [syndrome_xor, syndrome_xor, hs]) (findError_complete hcols hf _ hlist h3)
  | some f =>
    obtain ⟨hsyn, h3, hlist⟩ := findError_sound hcols hf
    have hf0 := (listed_tail_iff f).mp hlist
    refine ⟨f, rfl, .inr ⟨by rw [popcount_delta_or (by decide) hf0, h3], ?_⟩, ?_⟩
    · rw [BitVec.getLsbD_or, getLsbD_delta]; rfl
    · rw [syndrome_delta_or hf0, BitVec.eq_of_toNat_eq hsyn, syndrome_xor, BitVec.xor_comm,
        xor_xor_cancel_right]

/-- The search finds the vector of a leader's form in the coset (R185). -/
theorem leader_spec (v : Vec) : LeaderForm (leader v) ∧ syndrome v = syndrome (leader v) := by
  rcases leaderOf_cases (syndrome v).toNat with ⟨k, hk, h⟩ | ⟨hnone, h⟩
  · obtain ⟨hs, hw, -⟩ := findError_sound checkColumns_columns h
    exact ⟨.inl (hw.trans_le hk), (BitVec.eq_of_toNat_eq hs).symm⟩
  · obtain ⟨e, he, hs⟩ := exists_leaderForm v
    rcases he with h3 | ⟨h4, h0⟩
    · exact absurd (congrArg BitVec.toNat hs.symm)
        (findError_complete checkColumns_columns (hnone _ h3) e (listed_checkColumns e) rfl)
    · obtain ⟨f, hf, hform, hsf⟩ := findError_tetrad h4 h0 hs
      rw [hf, Option.map_some, Option.getD_some] at h
      rw [leader, h]
      exact ⟨hform, hsf⟩

theorem leader_eq_of_leaderForm {v e : Vec} (he : LeaderForm e) (hs : syndrome v = syndrome e) : leader v = e := by
  obtain ⟨hform, hleader⟩ := leader_spec v
  exact hform.unique he (hleader.symm.trans hs)

/-! ## Sums of chosen rows -/

/-- Row k added where bit k of x is 1: the step of `golayEncode` and `xorRows`. -/
def addRow {n : Nat} (f : Fin 12 → BitVec n) (x : BitVec 12) (acc : BitVec n) (k : Fin 12) : BitVec n :=
  if x.getLsbD k then acc ^^^ f k else acc

/-- The XOR of the rows f k over the bits k of x that are 1. -/
def xorWhere {n : Nat} (f : Fin 12 → BitVec n) (x : BitVec 12) : BitVec n := (List.finRange 12).foldl (addRow f x) 0#n

theorem golayEncode_eq_xorWhere (d : BitVec 12) : golayEncode d = xorWhere (fun k => basis[k]) d := rfl
theorem xorRows_eq_xorWhere (m : Vector (BitVec 12) 12) (x : BitVec 12) : xorRows m x = xorWhere (fun k => m[k]) x := rfl

/-- A linear function of a sum of rows is the sum of its values at the rows. -/
theorem map_xorWhere {n m : Nat} {g : BitVec n → BitVec m} (hg : ∀ u w, g (u ^^^ w) = g u ^^^ g w) (f : Fin 12 → BitVec n)
    (x : BitVec 12) : g (xorWhere f x) = xorWhere (fun k => g (f k)) x := by
  have hstep : ∀ acc k, addRow (fun k => g (f k)) x (g acc) k = g (addRow f x acc k) := by
    intro acc k
    unfold addRow
    split
    · exact (hg _ _).symm
    · rfl
  rw [xorWhere, xorWhere, ← map_zero_of_map_xor hg, List.foldl_hom g hstep]

theorem addRow_xor {n : Nat} (f : Fin 12 → BitVec n) (x y : BitVec 12) (a b : BitVec n) (k : Fin 12) :
    addRow f (x ^^^ y) (a ^^^ b) k = addRow f x a k ^^^ addRow f y b k := by
  unfold addRow
  rw [BitVec.getLsbD_xor]
  cases x.getLsbD k <;> cases y.getLsbD k
  · rfl
  · exact BitVec.xor_assoc a b (f k)
  · change a ^^^ b ^^^ f k = a ^^^ f k ^^^ b
    ac_rfl
  · change a ^^^ b = a ^^^ f k ^^^ (b ^^^ f k)
    rw [show a ^^^ f k ^^^ (b ^^^ f k) = a ^^^ b ^^^ (f k ^^^ f k) by ac_rfl, BitVec.xor_self, BitVec.xor_zero]

theorem xorWhere_xor {n : Nat} (f : Fin 12 → BitVec n) (x y : BitVec 12) :
    xorWhere f (x ^^^ y) = xorWhere f x ^^^ xorWhere f y := by
  have hfold := List.foldl_hom₂ (List.finRange 12) (· ^^^ ·) (addRow f x) (addRow f y) (addRow f (x ^^^ y)) 0#n 0#n
    fun a b k => (addRow_xor f x y a b k).symm
  rwa [BitVec.xor_self] at hfold

theorem xorRows_xor (m : Vector (BitVec 12) 12) (x y : BitVec 12) : xorRows m (x ^^^ y) = xorRows m x ^^^ xorRows m y :=
  xorWhere_xor _ x y
theorem xorRows_zero (m : Vector (BitVec 12) 12) : xorRows m 0#12 = 0#12 := map_zero_of_map_xor (xorRows_xor m)

theorem gather_xor (place : Vector Nat 12) (u w : Vec) : gather place (u ^^^ w) = gather place u ^^^ gather place w := by
  apply BitVec.eq_of_getLsbD_eq
  intro k hk
  rw [BitVec.getLsbD_xor]
  simp only [gather, getLsbD_ofBits, BitVec.getLsbD_xor, hk, decide_true, Bool.true_and]

/-! ## The two halves of a vector (R188) -/

/-- A codeword at INFO is its data, and at PAR the sum of the data's rows of Ar (R182, R188). -/
theorem gather_infoSet_golayEncode (d : BitVec 12) : gather infoSet (golayEncode d) = d := by
  apply BitVec.eq_of_getLsbD_eq
  intro k hk
  exact (getLsbD_gather infoSet _ ⟨k, hk⟩).trans (getLsbD_golayEncode_infoSet d ⟨k, hk⟩)

theorem gather_parSet_golayEncode (d : BitVec 12) : gather parSet (golayEncode d) = xorRows stageAr d := by
  have hrows : (fun k : Fin 12 => gather parSet basis[k]) = fun k => stageAr[k] := funext (by decide)
  rw [golayEncode_eq_xorWhere, map_xorWhere (gather_xor parSet), hrows, xorRows_eq_xorWhere]

/-- The sum of the unit rows at the bits of x is x. -/
theorem xorWhere_unit (x : BitVec 12) : xorWhere (fun k : Fin 12 => 1#12 <<< k.val) x = x := by
  have hrows : (fun k : Fin 12 => gather infoSet basis[k]) = fun k => 1#12 <<< k.val := funext (by decide)
  rw [← hrows, ← map_xorWhere (gather_xor infoSet), ← golayEncode_eq_xorWhere, gather_infoSet_golayEncode]

/-- Rows m' that m sends to the unit rows are undone by m. -/
theorem xorRows_xorRows_of_unit {m m' : Vector (BitVec 12) 12} (h : ∀ k : Fin 12, xorRows m m'[k] = 1#12 <<< k.val)
    (x : BitVec 12) : xorRows m (xorRows m' x) = x := by
  rw [xorRows_eq_xorWhere m', map_xorWhere (xorRows_xor m), funext h, xorWhere_unit]

/-- Ai is the inverse of Ar (R188). -/
theorem xorRows_stageAr_stageAi (x : BitVec 12) : xorRows stageAr (xorRows stageAi x) = x :=
  xorRows_xorRows_of_unit (by decide) x
theorem xorRows_stageAi_stageAr (x : BitVec 12) : xorRows stageAi (xorRows stageAr x) = x :=
  xorRows_xorRows_of_unit (by decide) x

theorem xorRows_stageAr_unit : ∀ i : Fin 12, xorRows stageAr (1#12 <<< i.val) = stageAr[i] := by decide
theorem xorRows_stageAi_unit : ∀ i : Fin 12, xorRows stageAi (1#12 <<< i.val) = stageAi[i] := by decide

/-- A vector is fixed by its two halves, and its weight is theirs together (R182). -/
theorem eq_of_gather_eq {u w : Vec} (hinfo : gather infoSet u = gather infoSet w) (hpar : gather parSet u = gather parSet w) :
    u = w := by
  apply BitVec.eq_of_getLsbD_eq
  intro i hi
  rcases infoSet_or_parSet i hi with ⟨k, rfl⟩ | ⟨k, rfl⟩
  · rw [← getLsbD_gather, hinfo, getLsbD_gather]
  · rw [← getLsbD_gather, hpar, getLsbD_gather]

theorem popcount_gather (place : Vector Nat 12) (v : Vec) :
    popcount (gather place v) = ((List.range 12).map fun k => place.toList.getD k 0).countP v.getLsbD := by
  rw [popcount_eq_countP, List.countP_map]
  refine List.countP_congr fun k hk => ?_
  rw [gather, getLsbD_ofBits, decide_eq_true (List.mem_range.mp hk), Bool.true_and, Function.comp]

theorem popcount_eq_gather (v : Vec) : popcount v = popcount (gather infoSet v) + popcount (gather parSet v) := by
  have hperm : (List.range 24).Perm (((List.range 12).map fun k => infoSet.toList.getD k 0) ++
      (List.range 12).map fun k => parSet.toList.getD k 0) := by decide
  rw [popcount_gather, popcount_gather, ← List.countP_append, ← hperm.countP_eq, popcount_eq_countP]

/-- The vector with x at INFO and y at PAR. -/
def joinHalves (x y : BitVec 12) : Vec := scatterBits infoSet x ||| scatterBits parSet y

theorem scatterBits_zero : ∀ place ∈ [infoSet, parSet], scatterBits place 0#12 = 0#24 := by decide
theorem scatterBits_infoSet_eq (x : BitVec 12) : scatterBits infoSet x = joinHalves x 0#12 := by
  rw [joinHalves, scatterBits_zero parSet (by decide), BitVec.or_zero]
theorem scatterBits_parSet_eq (y : BitVec 12) : scatterBits parSet y = joinHalves 0#12 y := by
  rw [joinHalves, scatterBits_zero infoSet (by decide), BitVec.zero_or]

theorem getLsbD_scatterBits (place : Vector Nat 12) (z : BitVec 12) (j : Nat) :
    (scatterBits place z).getLsbD j = (List.finRange 12).any fun k => z.getLsbD k && decide (place[k] = j ∧ j < 24) := by
  have hfold : ∀ (l : List (Fin 12)) (acc : Vec),
      (l.foldl (fun acc (k : Fin 12) => if z.getLsbD k then acc ||| delta place[k] else acc) acc).getLsbD j =
        (acc.getLsbD j || l.any fun k => z.getLsbD k && decide (place[k] = j ∧ j < 24)) := by
    intro l
    induction l with
    | nil => simp
    | cons k l ih =>
      intro acc
      rw [List.foldl_cons, ih, List.any_cons]
      cases z.getLsbD k
      · simp
      · rw [if_pos rfl, BitVec.getLsbD_or, getLsbD_delta, Bool.true_and, Bool.or_assoc]
  rw [scatterBits, hfold, BitVec.getLsbD_zero, Bool.false_or]

theorem getLsbD_scatterBits_eq_true_iff {place : Vector Nat 12} {z : BitVec 12} {j : Nat} (hj : j < 24) :
    (scatterBits place z).getLsbD j = true ↔ ∃ k : Fin 12, z.getLsbD k = true ∧ place[k] = j := by
  rw [getLsbD_scatterBits, List.any_eq_true]
  simp only [List.mem_finRange, true_and, Bool.and_eq_true, decide_eq_true_eq, hj, and_true]

theorem infoSet_lt : ∀ j : Fin 12, infoSet[j] < 24 := by decide
theorem infoSet_inj : ∀ j k : Fin 12, infoSet[j] = infoSet[k] ↔ j = k := by decide
theorem infoSet_ne_parSet : ∀ j k : Fin 12, infoSet[j] ≠ parSet[k] := by decide

theorem gather_infoSet_joinHalves (x y : BitVec 12) : gather infoSet (joinHalves x y) = x := by
  apply BitVec.eq_of_getLsbD_eq
  intro k hk
  refine (getLsbD_gather infoSet _ ⟨k, hk⟩).trans ?_
  rw [joinHalves, BitVec.getLsbD_or, Bool.eq_iff_iff, Bool.or_eq_true, getLsbD_scatterBits_eq_true_iff (infoSet_lt _),
    getLsbD_scatterBits_eq_true_iff (infoSet_lt _)]
  simp only [infoSet_inj, (infoSet_ne_parSet _ _).symm, and_false, exists_false, or_false, exists_eq_right]

theorem gather_parSet_joinHalves (x y : BitVec 12) : gather parSet (joinHalves x y) = y := by
  apply BitVec.eq_of_getLsbD_eq
  intro k hk
  refine (getLsbD_gather parSet _ ⟨k, hk⟩).trans ?_
  rw [joinHalves, BitVec.getLsbD_or, Bool.eq_iff_iff, Bool.or_eq_true, getLsbD_scatterBits_eq_true_iff (parSet_lt _),
    getLsbD_scatterBits_eq_true_iff (parSet_lt _)]
  simp only [parSet_inj, infoSet_ne_parSet, and_false, exists_false, false_or, exists_eq_right]

theorem popcount_joinHalves (x y : BitVec 12) : popcount (joinHalves x y) = popcount x + popcount y := by
  rw [popcount_eq_gather, gather_infoSet_joinHalves, gather_parSet_joinHalves]

/-! ## The first syndrome of R188 -/

/-- `s1` of R188: PAR with the rows of Ar at the points of INFO added. -/
def stageSyndrome (v : Vec) : BitVec 12 := xorRows stageAr (gather infoSet v) ^^^ gather parSet v

theorem stageSyndrome_joinHalves (x y : BitVec 12) : stageSyndrome (joinHalves x y) = xorRows stageAr x ^^^ y := by
  rw [stageSyndrome, gather_infoSet_joinHalves, gather_parSet_joinHalves]

theorem stageSyndrome_xor (u w : Vec) : stageSyndrome (u ^^^ w) = stageSyndrome u ^^^ stageSyndrome w := by
  rw [stageSyndrome, gather_xor, gather_xor, xorRows_xor, stageSyndrome, stageSyndrome]
  ac_rfl

/-- It is 0 just on the code, since a codeword's PAR is the sum of its rows of Ar (R183, R188). -/
theorem stageSyndrome_eq_zero_iff (v : Vec) : stageSyndrome v = 0#12 ↔ InCode v := by
  rw [stageSyndrome, BitVec.xor_eq_zero_iff]
  constructor
  · intro h
    refine ⟨gather infoSet v, eq_of_gather_eq ?_ ?_⟩
    · rw [gather_infoSet_golayEncode]
    · rw [gather_parSet_golayEncode, h]
  · rintro ⟨d, rfl⟩
    rw [gather_infoSet_golayEncode, gather_parSet_golayEncode]

/-- So it tells the cosets apart as the syndrome does. -/
theorem stageSyndrome_eq_iff (v e : Vec) : stageSyndrome v = stageSyndrome e ↔ syndrome v = syndrome e := by
  rw [syndrome_eq_iff, ← stageSyndrome_eq_zero_iff, stageSyndrome_xor, BitVec.xor_eq_zero_iff]

/-- `s2` of R188 is INFO with the rows of Ai at the points of PAR added. -/
theorem xorRows_stageAi_stageSyndrome (e : Vec) :
    xorRows stageAi (stageSyndrome e) = gather infoSet e ^^^ xorRows stageAi (gather parSet e) := by
  rw [stageSyndrome, xorRows_xor, xorRows_stageAi_stageAr]

/-! ## One stage of R188 -/

theorem popcount_unit : ∀ i : Fin 12, popcount (1#12 <<< i.val) = 1 := by decide

/-- Twelve bits of weight 1 are one unit row. -/
theorem eq_unit_of_popcount {x : BitVec 12} (h : popcount x = 1) : ∃ i : Fin 12, x = 1#12 <<< i.val := by
  obtain ⟨i, -, hi⟩ := List.countP_pos_iff.mp (by rw [← popcount_eq_countP, h]; decide)
  have hlt := BitVec.lt_of_getLsbD hi
  refine ⟨⟨i, hlt⟩, BitVec.xor_eq_zero_iff.mp (eq_zero_of_popcount ?_)⟩
  have hadd := popcount_xor_add x (1#12 <<< i)
  have hcommon : 0 < popcount (x &&& 1#12 <<< i) := by
    refine popcount_pos_of_getLsbD (i := i) ?_
    rw [BitVec.getLsbD_and, hi, BitVec.getLsbD_shiftLeft]
    simp [hlt]
  rw [h, popcount_unit ⟨i, hlt⟩] at hadd
  change popcount (x ^^^ 1#12 <<< i) = 0
  omega

theorem stageSyndrome_def (v : Vec) : xorRows stageAr (gather infoSet v) ^^^ gather parSet v = stageSyndrome v := rfl

/-- Two halves that answer `s1` and have at most 3 points together are a vector of that weight in the coset. -/
theorem found_of_stageSyndrome {v : Vec} {x y : BitVec 12} (hw : popcount x + popcount y ≤ 3)
    (hs : xorRows stageAr x ^^^ y = stageSyndrome v) :
    popcount (joinHalves x y) ≤ 3 ∧ syndrome v = syndrome (joinHalves x y) := by
  rw [← stageSyndrome_eq_iff, popcount_joinHalves, stageSyndrome_joinHalves]
  exact ⟨hw, hs.symm⟩

/-- What a stage finds: a vector in the coset with at most 3 points (R188). -/
theorem stage_some {v e : Vec} (h : stage v = some e) : popcount e ≤ 3 ∧ syndrome v = syndrome e := by
  have hzero : popcount 0#12 = 0 := by decide
  simp only [stage] at h
  rw [stageSyndrome_def] at h
  split at h
  · next hpar =>
    cases h
    rw [scatterBits_parSet_eq]
    exact found_of_stageSyndrome (by omega) (by rw [xorRows_zero, BitVec.zero_xor])
  split at h
  · next i hi =>
    cases h
    have hw : popcount (stageSyndrome v ^^^ stageAr[i]) ≤ 2 := by simpa using List.find?_some hi
    refine found_of_stageSyndrome (by have := popcount_unit i; omega) ?_
    rw [xorRows_stageAr_unit, BitVec.xor_comm, xor_xor_cancel_right]
  split at h
  · next hinfo =>
    cases h
    rw [scatterBits_infoSet_eq]
    exact found_of_stageSyndrome (by omega) (by rw [xorRows_stageAr_stageAi, BitVec.xor_zero])
  split at h
  · next j hj =>
    cases h
    have hw : popcount (xorRows stageAi (stageSyndrome v) ^^^ stageAi[j]) ≤ 2 := by simpa using List.find?_some hj
    refine found_of_stageSyndrome (by have := popcount_unit j; omega) ?_
    rw [← xorRows_stageAi_unit, ← xorRows_xor, xorRows_stageAr_stageAi, xor_xor_cancel_right]
  · cases h

/-- What a stage that finds nothing has tested (R188). -/
theorem stage_none {v : Vec} (h : stage v = none) :
    3 < popcount (stageSyndrome v) ∧ (∀ i : Fin 12, 2 < popcount (stageSyndrome v ^^^ stageAr[i])) ∧
      3 < popcount (xorRows stageAi (stageSyndrome v)) ∧
      ∀ j : Fin 12, 2 < popcount (xorRows stageAi (stageSyndrome v) ^^^ stageAi[j]) := by
  simp only [stage] at h
  rw [stageSyndrome_def] at h
  split at h
  · cases h
  next hpar =>
  split at h
  · cases h
  next hrow =>
  split at h
  · cases h
  next hinfo =>
  split at h
  · cases h
  next hrow' =>
  refine ⟨Nat.lt_of_not_le hpar, fun i => ?_, Nat.lt_of_not_le hinfo, fun j => ?_⟩
  · simpa using List.find?_eq_none.mp hrow i (List.mem_finRange i)
  · simpa using List.find?_eq_none.mp hrow' j (List.mem_finRange j)

/-- A stage finds nothing only in a coset without a vector of at most 3 points: such a vector has no point in INFO, or one, or
else no point in PAR, or one (R188). -/
theorem three_lt_of_stage_none {v e : Vec} (h : stage v = none) (hs : syndrome v = syndrome e) : 3 < popcount e := by
  obtain ⟨hpar, hrow, hinfo, hrow'⟩ := stage_none h
  have hs2 := xorRows_stageAi_stageSyndrome e
  rw [(stageSyndrome_eq_iff v e).mpr hs] at hpar hrow hinfo hrow'
  rw [hs2] at hinfo hrow'
  rw [stageSyndrome] at hpar hrow
  rw [popcount_eq_gather]
  generalize gather infoSet e = x at *
  generalize gather parSet e = y at *
  by_contra hle
  have hcases : popcount x = 0 ∨ popcount x = 1 ∨ popcount y = 0 ∨ popcount y = 1 := by omega
  rcases hcases with hx | hx | hy | hy
  · rw [eq_zero_of_popcount hx, xorRows_zero, BitVec.zero_xor] at hpar
    omega
  · obtain ⟨i, rfl⟩ := eq_unit_of_popcount hx
    have hi := hrow i
    rw [xorRows_stageAr_unit, xor_xor_cancel_left] at hi
    omega
  · rw [eq_zero_of_popcount hy, xorRows_zero, BitVec.xor_zero] at hinfo
    omega
  · obtain ⟨j, rfl⟩ := eq_unit_of_popcount hy
    have hj := hrow' j
    rw [xorRows_stageAi_unit, xor_xor_cancel_right] at hj
    omega

/-- The two stages find the leader: a coset whose leader is a tetrad with point 0 has a vector of 3 points without it (R188). -/
theorem stagedLeader_spec (v : Vec) : LeaderForm (stagedLeader v) ∧ syndrome v = syndrome (stagedLeader v) := by
  unfold stagedLeader
  cases h : stage v with
  | some e =>
    obtain ⟨hw, hs⟩ := stage_some h
    exact ⟨.inl hw, hs⟩
  | none =>
    cases h' : stage (v ^^^ delta 0) with
    | some e =>
      obtain ⟨hw, hs⟩ := stage_some h'
      refine ⟨leaderForm_xor_delta hw, ?_⟩
      change syndrome v = syndrome (e ^^^ delta 0)
      rw [syndrome_xor, ← hs, syndrome_xor, xor_xor_cancel_right]
    | none =>
      obtain ⟨e, hform, hs⟩ := exists_leaderForm v
      have hlt := three_lt_of_stage_none h hs
      have hlt' := three_lt_of_stage_none (e := e ^^^ delta 0) h' (by rw [syndrome_xor, syndrome_xor, hs])
      rcases hform with h3 | ⟨h4, h0⟩
      · omega
      · have := popcount_xor_delta_of_mem h0
        omega

/-! ## The result word of a decode (R195) -/

/-- A field of an appended value that lies in its upper part. -/
theorem extract_append_upper {n m k : Nat} (x : BitVec n) (y : BitVec m) (i : Nat) :
    (x ++ y).extractLsb' (m + i) k = x.extractLsb' i k := by
  rw [BitVec.extractLsb'_append_eq_of_le (Nat.le_add_right m i), Nat.add_sub_cancel_left]

/-- The result word of an error pattern of at most 4 points: the points, their number, the tie, and zeros. -/
theorem decodeSres_fields {e : Vec} (h : popcount e ≤ 4) :
    (decodeSres e).extractLsb' 0 24 = e ∧ ((decodeSres e).extractLsb' 24 3).toNat = popcount e ∧
      (decodeSres e).getLsbD 27 = decide (popcount e = 4) ∧ (decodeSres e).extractLsb' 28 4 = 0#4 := by
  refine ⟨BitVec.extractLsb'_append_eq_right, ?_, ?_, ?_⟩
  · have hcount : (decodeSres e).extractLsb' 24 3 = BitVec.ofNat 3 (popcount e) :=
      (extract_append_upper _ e 0).trans BitVec.extractLsb'_append_eq_right
    rw [hcount, BitVec.toNat_ofNat, Nat.mod_eq_of_lt (by omega)]
  · simp only [decodeSres, BitVec.getLsbD_append]
    simp [beq_eq_decide]
  · exact (extract_append_upper _ e 4).trans ((extract_append_upper _ _ 1).trans (extract_append_upper _ _ 0))

/-- Without a tie bit 27 is 0 too. -/
theorem extract_decodeSres_high {e : Vec} (h : popcount e ≤ 3) : (decodeSres e).extractLsb' 27 5 = 0#5 := by
  have hne : (popcount e == 4) = false := by rw [beq_eq_false_iff_ne]; omega
  rw [decodeSres, hne]
  exact (extract_append_upper _ e 3).trans (extract_append_upper (0#4 ++ BitVec.ofBool false) _ 0)

/-- An error of at most 3 points on a codeword is the leader of the sum (R187). -/
theorem leader_xor_of_inCode {c e : Vec} (hc : InCode c) (h3 : popcount e ≤ 3) : leader (c ^^^ e) = e := by
  refine leader_eq_of_leaderForm (.inl h3) ((syndrome_eq_iff _ e).mpr ?_)
  rwa [xor_xor_cancel_right]

/-! ## The obligations -/

/-- A command that assigns V[d] alone completes with it, and leaves all other data (R322, R324). -/
theorem completed_of_setV {i : Instr} {s : State} {d : VReg} {x : Vec}
    (h : exec i s = complete i.opcode (.ok (s.setV d x)) s) :
    ∃ t, exec i s = .next t ∧ Completed i.opcode 0#4 s t ∧ OtherV d s t ∧ t.p = s.p ∧ t.sres = s.sres ∧ t.grid = s.grid ∧
      t.v[d] = x :=
  ⟨_, h, ((SameControl.refl s).setV d x).completed _, otherV_setV s d x, rfl, rfl, rfl, getElem_setV_same s d x⟩

/-- A command that assigns V[d], SRES and GRID completes with them, and leaves the other data (R322, R324). -/
theorem completed_of_setV_setSres_setGrid {i : Instr} {s : State} {d : VReg} {x : Vec} {y : Word} {g : Vector Cell 24}
    (h : exec i s = complete i.opcode (.ok (((s.setV d x).setSres y).setGrid g)) s) :
    ∃ t, exec i s = .next t ∧ Completed i.opcode 0#4 s t ∧ OtherV d s t ∧ t.p = s.p ∧ t.v[d] = x ∧ t.sres = y ∧
      t.grid = g :=
  ⟨_, h, ((((SameControl.refl s).setV d x).setSres y).setGrid g).completed _, otherV_setV s d x, rfl,
    getElem_setV_same s d x, rfl, rfl⟩

/-- DEC assigns V[D] and SRES, and the grid stays (R193). -/
theorem exec_dec (d a : VReg) (s : State) : exec (.dec d a) s = complete (Instr.dec d a).opcode
    (.ok (((s.setV d (s.v[a] ^^^ leader s.v[a])).setSres (decodeSres (leader s.v[a]))).setGrid s.grid)) s := by
  simp only [exec, execDec, golayDecode, getV_eq]
  rfl

/-- GDEC assigns the same for the selection, and the grid that shows it (R245). -/
theorem exec_gdec (d : VReg) (s : State) : exec (.gdec d) s = complete (Instr.gdec d).opcode
    (.ok (((s.setV d (selmask s.grid ^^^ leader (selmask s.grid))).setSres (decodeSres (leader (selmask s.grid)))).setGrid
      (decodedGrid (selmask s.grid) (leader (selmask s.grid))))) s := by
  simp only [exec, execGdec, golayDecode]

/-- Settles O34: a codeword is the encoding of its bits at INFO. -/
theorem encGivesTheCodewordOfTheData : Obligations.EncGivesTheCodewordOfTheData := by
  unfold Obligations.EncGivesTheCodewordOfTheData
  intro s d x
  obtain ⟨t, ht, hc, hv, hp, hsres, hg, hx⟩ := completed_of_setV (i := .enc d x) (s := s) rfl
  refine ⟨t, ht, hc, hv, hp, hsres, hg, ?_⟩
  rw [hx]
  refine ⟨⟨x, rfl⟩, getLsbD_golayEncode_infoSet x, ?_⟩
  rintro c ⟨d', rfl⟩ hdata
  congr 1
  apply BitVec.eq_of_getLsbD_eq
  intro k hk
  rw [← hdata ⟨k, hk⟩, getLsbD_golayEncode_infoSet]

/-- Settles O35 bit by bit. -/
theorem synGivesTheSyndrome : Obligations.SynGivesTheSyndrome := by
  unfold Obligations.SynGivesTheSyndrome
  intro s a
  obtain ⟨t, ht, hc, hsres, hv, hp, hg⟩ := completed_of_setSres (i := .syn a) (s := s) rfl
  refine ⟨t, ht, hc, hv, hp, hg, fun k => ?_, ?_⟩
  · rw [hsres, BitVec.getLsbD_setWidth, getLsbD_syndrome, oddMeet, getV_eq, beq_eq_decide,
      decide_eq_true (show k.val < 32 by omega), Bool.true_and]
  · rw [hsres]
    exact extract_setWidth_high 20 _

/-- Settles O36: the zero-syndrome test is membership in the code. -/
theorem iscwTestsMembership : Obligations.IscwTestsMembership := by
  unfold Obligations.IscwTestsMembership
  intro s a
  obtain ⟨t, ht, hc, hsres, hv, hp, hg⟩ := completed_of_setSres (i := .iscw a) (s := s) rfl
  refine ⟨t, ht, hc, hv, hp, hg, ?_⟩
  rw [← isCodeword_iff_inCode, hsres]
  exact ⟨fun h => if_pos h, fun h => if_neg h⟩

/-- Settles O37: the search finds the vector of a leader's form, and its word reports it. -/
theorem decGivesTheNearestCodeword : Obligations.DecGivesTheNearestCodeword := by
  unfold Obligations.DecGivesTheNearestCodeword
  intro s d a
  obtain ⟨t, ht, hc, hv, hp, hx, hsres, hg⟩ := completed_of_setV_setSres_setGrid (exec_dec d a s)
  obtain ⟨hform, hs⟩ := leader_spec s.v[a]
  refine ⟨t, leader s.v[a], ht, hc, hv, hp, hg, hform.isLeader hs, hform.popcount_le, hx, ?_⟩
  rw [hsres]
  exact decodeSres_fields hform.popcount_le

/-- Settles O38: an error of at most 3 points has a leader's form, and lies in the coset of what it was added to. -/
theorem decCorrectsUpToThreeErrors : Obligations.DecCorrectsUpToThreeErrors := by
  unfold Obligations.DecCorrectsUpToThreeErrors
  intro s d a c e hcode h3 hsum
  obtain ⟨t, ht, hc, hv, hp, hx, hsres, hg⟩ := completed_of_setV_setSres_setGrid (exec_dec d a s)
  rw [hsum, leader_xor_of_inCode hcode h3] at hx hsres
  rw [xor_xor_cancel_right] at hx
  obtain ⟨hpoints, hcount, -, -⟩ := decodeSres_fields (e := e) (by omega)
  refine ⟨t, ht, hc, hv, hp, hg, hx, ?_⟩
  rw [hsres]
  exact ⟨hpoints, hcount, extract_decodeSres_high h3⟩

/-- Settles O39: what the stages find and what the search finds both have a leader's form, and a coset has one such vector. -/
theorem stagedDecoderFindsTheLeader : Obligations.StagedDecoderFindsTheLeader := by
  unfold Obligations.StagedDecoderFindsTheLeader
  intro v
  obtain ⟨hform, hs⟩ := stagedLeader_spec v
  exact ⟨hform.isLeader hs, (leader_eq_of_leaderForm hform hs).symm⟩

/-- Settles O49: DEC's result for the selection, and the grid cell by cell. -/
theorem gdecDecodesTheGrid : Obligations.GdecDecodesTheGrid := by
  unfold Obligations.GdecDecodesTheGrid
  intro s d S hS
  obtain rfl := eq_selmask_of_isSelection hS
  obtain ⟨t, ht, hc, hv, hp, hx, hsres, hg⟩ := completed_of_setV_setSres_setGrid (exec_gdec d s)
  obtain ⟨hform, hs⟩ := leader_spec (selmask s.grid)
  obtain ⟨hpoints, hcount, htie, hhigh⟩ := hsres ▸ decodeSres_fields hform.popcount_le
  refine ⟨t, leader (selmask s.grid), ht, hc, hv, hp, hform.isLeader hs, hform.popcount_le, hx, hpoints, hcount, htie, hhigh,
    fun i => ?_⟩
  rw [hg]
  exact Vector.getElem_ofFn i.isLt

end Sys2Proof.Machine

/-! PROOFS. The family of 42_octad.md, and GCMPL of 43_grid.md: why an octad is determined by any five of its points (R210), the
completer and its realisation by the decoder (R211, R212), and why the octad-match machine ends at the number of octads below what
it searches for (R213). -/

namespace Sys2Proof.Machine

/-! ## Sets of points inside an octad -/

/-- Of the points of O, those outside a subset S are the sum of the two (R10). -/
theorem Within.popcount_xor {S O : Vec} (h : Within S O) : popcount (S ^^^ O) + popcount S = popcount O := by
  have hadd := popcount_xor_add S O
  rw [h] at hadd
  omega

theorem Within.inter {S O O' : Vec} (h : Within S O) (h' : Within S O') : Within S (O &&& O') := by
  rw [Within, ← BitVec.and_assoc, h, h']

theorem popcount_and_le (S e : Vec) : popcount (S &&& e) ≤ popcount e := by
  have hin : Within (S &&& e) e := by rw [Within, BitVec.and_assoc, BitVec.and_self]
  have hrest := hin.popcount_xor
  omega

/-- A set lies in its sum with a set it does not meet. -/
theorem within_xor_of_disjoint {S e : Vec} (h : S &&& e = 0#24) : Within S (S ^^^ e) := by
  have hmeet : S &&& (S ^^^ e) = S ^^^ (S &&& e) := by
    ext i
    simp [Bool.and_xor_distrib_left]
  rw [Within, hmeet, h, BitVec.xor_zero]

/-- The sum of two codewords is one (R181). -/
theorem InCode.xor {c c' : Vec} (hc : InCode c) (hc' : InCode c') : InCode (c ^^^ c') := by
  rw [← isCodeword_iff_inCode] at *
  exact isCodeword_xor c c' hc hc'

/-- Two octads with 5 common points differ in at most 6, so they are one (R210). -/
theorem IsOctad.eq_of_within {S O O' : Vec} (h5 : 5 ≤ popcount S) (hO : IsOctad O) (hin : Within S O) (hO' : IsOctad O')
    (hin' : Within S O') : O = O' := by
  obtain ⟨hcode, hw⟩ := hO
  obtain ⟨hcode', hw'⟩ := hO'
  have hadd := popcount_xor_add O O'
  have hcommon := (hin.inter hin').popcount_xor
  exact BitVec.xor_eq_zero_iff.mp (eq_zero_of_inCode (hcode.xor hcode') (by omega))

/-! ## The completer -/

/-- The completer answers the octad that contains the set (R211). -/
theorem completion_of_within {S O : Vec} (h5 : 5 ≤ popcount S) (hO : IsOctad O) (hin : Within S O) :
    completion S = .ok O := by
  have hfind : octRom.find? (fun O => S &&& O == S) = some O := by
    cases hf : octRom.find? fun O => S &&& O == S with
    | none => exact absurd (beq_iff_eq.mpr hin) (List.find?_eq_none.mp hf O ((mem_octRom_iff O).mpr hO))
    | some O' =>
      have hO' : IsOctad O' := (mem_octRom_iff O').mp (List.mem_of_find?_eq_some hf)
      have hin' : Within S O' := beq_iff_eq.mp (List.find?_some (p := fun O => S &&& O == S) hf)
      rw [hO.eq_of_within h5 hin hO' hin']
  rw [completion, if_neg (by omega), hfind]

/-! ## Completion through the decoder (R212) -/

/-- The decoder's answer is a codeword (R186). -/
theorem inCode_golayDecode (S : Vec) : InCode (golayDecode S).1 := (syndrome_eq_iff S _).mp (leader_spec S).2

/-- What a set lacks of its octad is at most 3 points, so it is the leader, and the decoder puts it in (R187, R212). -/
theorem golayDecode_of_within {S O : Vec} (h5 : 5 ≤ popcount S) (hO : IsOctad O) (hin : Within S O) :
    (golayDecode S).1 = O := by
  obtain ⟨hcode, hw⟩ := hO
  have hlack := hin.popcount_xor
  have hsum : S ^^^ (S ^^^ O) = O := by rw [← BitVec.xor_assoc, BitVec.xor_self, BitVec.zero_xor]
  have hleader : leader S = S ^^^ O :=
    leader_eq_of_leaderForm (.inl (by omega)) ((syndrome_eq_iff S _).mpr (hsum.symm ▸ hcode))
  rw [golayDecode, hleader, hsum]

/-- A nonempty codeword of fewer than 12 points has 8 (R181). -/
theorem popcount_eq_eight_of_inCode {c : Vec} (hc : InCode c) (hpos : 0 < popcount c) (hlt : popcount c < 12) :
    popcount c = 8 := by
  have hcheck := inCode_all (p := fun c => popcount c == 0 || popcount c == 8 || decide (12 ≤ popcount c))
    (by decide +kernel) hc
  simp only [Bool.or_eq_true, beq_iff_eq, decide_eq_true_eq] at hcheck
  omega

/-- The leader of five points has three others: with them the five are an octad (R210, R212). -/
theorem isOctad_golayDecode_of_five {S : Vec} (h5 : popcount S = 5) :
    IsOctad (golayDecode S).1 ∧ Within S (golayDecode S).1 := by
  have hadd := popcount_xor_add S (leader S)
  have hle := (leader_spec S).1.popcount_le
  have hmeet := popcount_and_le S (leader S)
  have hcode : InCode (S ^^^ leader S) := inCode_golayDecode S
  have h8 := popcount_eq_eight_of_inCode hcode (by omega) (by omega)
  have hdisjoint : popcount (S &&& leader S) = 0 := by omega
  exact ⟨⟨hcode, h8⟩, within_xor_of_disjoint (eq_zero_of_popcount hdisjoint)⟩

/-! ## The octad-match machine (R213) -/

/-- How many octads are below x (R213). -/
def octadsBelow (x : Vec) : Nat := octRom.countP fun O => decide (O.toNat < x.toNat)

theorem octadsBelow_le (x : Vec) : octadsBelow x ≤ 759 := octRom_length ▸ List.countP_le_length

/-- In an increasing list the entries below x are the first ones. -/
theorem getElem_lt_iff_lt_countP {l : List Vec} (hl : l.Pairwise fun x y => x.toNat < y.toNat) (x : Vec) {k : Nat}
    (hk : k < l.length) : l[k].toNat < x.toNat ↔ k < l.countP fun O => decide (O.toNat < x.toNat) := by
  induction l generalizing k with
  | nil => cases hk
  | cons O l ih =>
    obtain ⟨hfirst, hl⟩ := List.pairwise_cons.mp hl
    by_cases hlt : O.toNat < x.toNat
    · rw [List.countP_cons_of_pos (by simpa using hlt)]
      cases k with
      | zero => simpa using hlt
      | succ k => simpa using ih hl (Nat.lt_of_succ_lt_succ hk)
    · have hnone : ∀ O' ∈ O :: l, ¬ O'.toNat < x.toNat := by
        intro O' hO'
        rcases List.mem_cons.mp hO' with rfl | hO'
        · exact hlt
        · have := hfirst O' hO'
          omega
      have hcount : (O :: l).countP (fun O => decide (O.toNat < x.toNat)) = 0 :=
        List.countP_eq_zero.mpr fun O' hO' => by simpa using hnone O' hO'
      rw [hcount]
      exact iff_of_false (hnone _ (List.getElem_mem hk)) (Nat.not_lt_zero k)

/-- OCT[k] is the entry of OCTROM at k (R90). -/
theorem oct_eq_getElem {k : Nat} (hk : k < 759) : oct k = octRom[k]'(octRom_length ▸ hk) := List.getD_eq_getElem _ _ _

theorem getElem?_octRom {k : Nat} (hk : k < 759) : octRom[k]? = some (oct k) := by
  rw [oct_eq_getElem hk, List.getElem?_eq_getElem]

theorem oct_mem_octRom {k : Nat} (hk : k < 759) : oct k ∈ octRom := List.mem_of_getElem? (getElem?_octRom hk)

theorem exists_oct_of_mem {x : Vec} (h : x ∈ octRom) : ∃ k < 759, oct k = x := by
  obtain ⟨k, hk, hx⟩ := List.getElem_of_mem h
  rw [octRom_length] at hk
  exact ⟨k, hk, (oct_eq_getElem hk).trans hx⟩

/-- The entries of OCTROM below x are those at the indexes below their number. -/
theorem oct_lt_iff {k : Nat} (hk : k < 759) (x : Vec) : oct k < x ↔ k < octadsBelow x := by
  rw [oct_eq_getElem hk, BitVec.lt_def]
  exact getElem_lt_iff_lt_countP octRom_pairwise x _

theorem oct_lt_oct {j k : Nat} (hjk : j < k) (hk : k < 759) : oct j < oct k := by
  rw [oct_eq_getElem hk, oct_eq_getElem (hjk.trans hk)]
  exact List.pairwise_iff_getElem.mp octRom_pairwise _ _ _ _ hjk

/-- There are k octads below OCT[k] (R213, R222): with more it would be below itself, and with fewer an earlier entry would not be
below it. -/
theorem octadsBelow_oct {k : Nat} (hk : k < 759) : octadsBelow (oct k) = k := by
  refine le_antisymm (Nat.le_of_not_lt fun hlt => ?_) (Nat.le_of_not_lt fun hlt => ?_)
  · exact BitVec.lt_irrefl _ ((oct_lt_iff hk _).mpr hlt)
  · exact lt_irrefl _ ((oct_lt_iff (hlt.trans hk) _).mp (oct_lt_oct hlt hk))

theorem octadMatchRun_done (x : Vec) (n lo : Nat) : octadMatchRun x n (.done lo) = .done lo := by
  induction n with
  | zero => rfl
  | succ n ih => exact ih

/-- From a range that holds the number of octads below x the machine ends at that number: each probe halves the range (R213). -/
theorem octadMatchRun_probe {x : Vec} {n lo hi : Nat} (hlo : lo ≤ octadsBelow x) (hhi : octadsBelow x ≤ hi)
    (hrom : hi ≤ 759) (hsize : hi - lo < 2 ^ n) : octadMatchRun x (n + 1) (.probe lo hi) = .done (octadsBelow x) := by
  induction n generalizing lo hi with
  | zero =>
    have heq : lo = octadsBelow x := by omega
    rw [octadMatchRun, octadMatchStep, if_pos (by omega), octadMatchRun_done, heq]
  | succ n ih =>
    rw [Nat.pow_succ] at hsize
    rw [octadMatchRun, octadMatchStep]
    split
    · have heq : lo = octadsBelow x := by omega
      rw [octadMatchRun_done, heq]
    · have hmid := oct_lt_iff (k := (lo + hi) / 2) (by omega) x
      split
      · next hlt => exact ih (hmid.mp hlt) hhi hrom (by omega)
      · next hge => exact ih hlo (Nat.le_of_not_lt fun h => hge (hmid.mpr h)) (by omega) (by omega)

/-- `lower_bound(x)` is the number of octads below x (R213). -/
theorem lowerBound_eq (x : Vec) : lowerBound x = octadsBelow x := by
  have hrun : octadMatchRun x 12 .idle = .done (octadsBelow x) :=
    octadMatchRun_probe (n := 10) (Nat.zero_le _) (octadsBelow_le x) le_rfl (by decide)
  rw [lowerBound, hrun]

/-- `found` says whether x is an octad of the table (R213, R221). -/
theorem octadFound_eq (x : Vec) : octadFound x = decide (x ∈ octRom) := by
  rw [Bool.eq_iff_iff, octadFound, lowerBound_eq, Bool.and_eq_true, decide_eq_true_eq, beq_iff_eq, decide_eq_true_eq]
  constructor
  · rintro ⟨hlt, hx⟩
    exact hx ▸ oct_mem_octRom hlt
  · intro hmem
    obtain ⟨k, hk, rfl⟩ := exists_oct_of_mem hmem
    rw [octadsBelow_oct hk]
    exact ⟨hk, rfl⟩

/-- The fields of OCTF's result (R221). -/
theorem octfWord_fields (x : Vec) : ((octfWord x).extractLsb' 0 10).toNat = octadsBelow x ∧
    (octfWord x).getLsbD 31 = decide (x ∈ octRom) ∧ (octfWord x).extractLsb' 10 21 = 0#21 := by
  refine ⟨?_, ?_, ?_⟩
  · have hle := octadsBelow_le x
    rw [octfWord, BitVec.extractLsb'_append_eq_right, BitVec.toNat_ofNat, lowerBound_eq, Nat.mod_eq_of_lt (by omega)]
  · rw [← octadFound_eq]
    simp only [octfWord, BitVec.getLsbD_append]
    simp
  · exact (extract_append_upper _ _ 0).trans BitVec.extractLsb'_append_eq_right

/-! ## What the commands commit -/

/-- CMPL of a set with a completion assigns V[D] and SRES, and the grid stays (R220). -/
theorem exec_cmpl_ok {s : State} {a : VReg} {O : Vec} (h : completion s.v[a] = .ok O) (d : VReg) :
    exec (.cmpl d a) s = complete (Instr.cmpl d a).opcode
      (.ok (((s.setV d O).setSres ((O &&& ~~~ s.v[a]).setWidth 32)).setGrid s.grid)) s := by
  simp only [exec, execCmpl, getV_eq, h]
  rfl

theorem exec_cmpl_error {s : State} {a : VReg} {e : CmdError} (h : completion s.v[a] = .error e) (d : VReg) :
    exec (.cmpl d a) s = complete (Instr.cmpl d a).opcode (.error e) s := by
  simp only [exec, execCmpl, getV_eq, h]

/-- GCMPL does the same for the selection, and shows it in the grid (R244). -/
theorem exec_gcmpl_ok {s : State} {O : Vec} (h : completion (selmask s.grid) = .ok O) (d : VReg) :
    exec (.gcmpl d) s = complete (Instr.gcmpl d).opcode
      (.ok (((s.setV d O).setSres ((O &&& ~~~ selmask s.grid).setWidth 32)).setGrid
        (completedGrid (selmask s.grid) O))) s := by
  simp only [exec, execGcmpl, h]

theorem exec_gcmpl_error {s : State} {e : CmdError} (h : completion (selmask s.grid) = .error e) (d : VReg) :
    exec (.gcmpl d) s = complete (Instr.gcmpl d).opcode (.error e) s := by
  simp only [exec, execGcmpl, h]

/-- OCTR checks its index first (R222). -/
theorem exec_octr_ok {k : Nat} (hk : k < 759) (d : VReg) (s : State) :
    exec (.octr d k) s = complete (Instr.octr d k).opcode (.ok (s.setV d (oct k))) s := by
  simp only [exec, execOctr, if_neg (Nat.not_le.mpr hk)]

theorem exec_octr_error {k : Nat} (hk : k ≥ 759) (d : VReg) (s : State) :
    exec (.octr d k) s = complete (Instr.octr d k).opcode (.error .invalidPattern) s := by
  simp only [exec, execOctr, if_pos hk]

/-! ## The obligations -/

/-- Settles O41: the completer's three answers. -/
theorem cmplCompletesToTheOctad : Obligations.CmplCompletesToTheOctad := by
  unfold Obligations.CmplCompletesToTheOctad
  intro s d a
  refine ⟨fun O h5 hO hin => ?_, fun hfew => raises_of_error (exec_cmpl_error (completion_few hfew) d),
    fun h5 hno => raises_of_error (exec_cmpl_error (completion_none h5 hno) d)⟩
  obtain ⟨t, ht, hc, hv, hp, hx, hsres, hg⟩ :=
    completed_of_setV_setSres_setGrid (exec_cmpl_ok (completion_of_within h5 hO hin) d)
  exact ⟨t, ht, hc, hv, hp, hg, hx, hsres⟩

/-- Settles O42: five points and their leader are an octad, and two octads do not share five points. -/
theorem fivePointsLieInOneOctad : Obligations.FivePointsLieInOneOctad := by
  unfold Obligations.FivePointsLieInOneOctad
  intro s d a h5
  obtain ⟨hO, hin⟩ := isOctad_golayDecode_of_five h5
  obtain ⟨t, ht, hc, -, -, hx, -⟩ :=
    completed_of_setV_setSres_setGrid (exec_cmpl_ok (completion_of_within h5.ge hO hin) d)
  refine ⟨⟨_, ⟨hO, hin⟩, fun O' hO' hin' => hO'.eq_of_within h5.ge hin' hO hin⟩, t, ht, hc, ?_⟩
  rw [hx]
  exact ⟨hO, hin⟩

/-- Settles O43: where an octad contains the set both give it, and the decoder's test passes on nothing else. -/
theorem completionThroughTheDecoder : Obligations.CompletionThroughTheDecoder := by
  unfold Obligations.CompletionThroughTheDecoder
  intro S h5 _
  rw [completionByDecoder, if_neg (by omega)]
  by_cases hex : ∃ O, IsOctad O ∧ Within S O
  · obtain ⟨O, hO, hin⟩ := hex
    rw [golayDecode_of_within h5 hO hin, completion_of_within h5 hO hin]
    exact if_pos ⟨hO.2, (BitVec.and_comm O S).trans hin⟩
  · rw [completion_none h5 fun O hO hin => hex ⟨O, hO, hin⟩]
    exact if_neg fun ⟨h8, hin⟩ => hex ⟨_, ⟨inCode_golayDecode S, h8⟩, (BitVec.and_comm S _).trans hin⟩

/-- Settles O44 from what the machine's search ends at. -/
theorem octfCountsTheOctadsBelow : Obligations.OctfCountsTheOctadsBelow := by
  unfold Obligations.OctfCountsTheOctadsBelow
  intro s a
  obtain ⟨t, ht, hc, hsres, hv, hp, hg⟩ := completed_of_setSres (i := .octf a) (s := s) rfl
  refine ⟨t, ht, hc, hv, hp, hg, ?_⟩
  rw [hsres]
  exact octfWord_fields s.v[a]

/-- Settles O45: an octad of the table has its index of octads below it, and OCTF counts them. -/
theorem octrReadsByIndex : Obligations.OctrReadsByIndex := by
  unfold Obligations.OctrReadsByIndex
  intro s d k
  refine ⟨fun hk => ?_, fun hk => raises_of_error (exec_octr_error hk d s)⟩
  obtain ⟨t, ht, hc, hv, hp, hsres, hg, hx⟩ := completed_of_setV (exec_octr_ok hk d s)
  obtain ⟨u, hu, -, -, -, -, hindex, hfound, -⟩ := octfCountsTheOctadsBelow t d
  refine ⟨t, ht, hc, hv, hp, hsres, hg, hx ▸ getElem?_octRom hk, u, hu, ?_⟩
  rw [hfound, hindex, hx]
  exact ⟨decide_eq_true (oct_mem_octRom hk), octadsBelow_oct hk⟩

/-- Settles O48: CMPL's answers for the selection, and the grid cell by cell. -/
theorem gcmplCompletesTheGrid : Obligations.GcmplCompletesTheGrid := by
  unfold Obligations.GcmplCompletesTheGrid
  intro s d S hS
  obtain rfl := eq_selmask_of_isSelection hS
  refine ⟨fun O h5 hO hin => ?_, fun hfew => raises_of_error (exec_gcmpl_error (completion_few hfew) d),
    fun h5 hno => raises_of_error (exec_gcmpl_error (completion_none h5 hno) d)⟩
  obtain ⟨t, ht, hc, hv, hp, hx, hsres, hg⟩ :=
    completed_of_setV_setSres_setGrid (exec_gcmpl_ok (completion_of_within h5 hO hin) d)
  refine ⟨t, ht, hc, hv, hp, hx, hsres, fun i => ?_⟩
  rw [hg]
  exact Vector.getElem_ofFn i.isLt

end Sys2Proof.Machine

/-! PROOFS. The family of 43_grid.md: what NOP, GRST, SEL, DESEL, GAPPLY and GPERM commit to the grid, and the orders of the
generators: applying two tables one after the other applies their composite (R282), so an order is an equation of tables. -/

namespace Sys2Proof.Machine

/-! ## Moving items by a bijection -/

/-- Every place is the image of one. -/
theorem IsBijection.surjective {p : Perm} (h : IsBijection p) (j : Point) : ∃ i : Point, j = ⟨p[i].toNat, h.1 i⟩ := by
  have hinj : Function.Injective fun i : Point => (⟨p[i].toNat, h.1 i⟩ : Point) :=
    fun i i' hii' => h.2 i i' (BitVec.eq_of_toNat_eq (Fin.mk.inj hii'))
  obtain ⟨i, hi⟩ := Finite.injective_iff_surjective.mp hinj j
  exact ⟨i, hi.symm⟩

/-- Place p[i] gets the item of place i (R281), as the obligations state it: without the bound on p[i]. -/
theorem getElem?_moveBy {α : Type} {p : Perm} (h : IsBijection p) (x : Vector α 24) (i : Point) :
    (moveBy p x)[p[i].toNat]? = some x[i] :=
  (Vector.getElem?_eq_getElem (h.1 i)).trans (congrArg some (moveBy_getElem h x i))

/-- `moveBy` is the only vector with the items moved, since the places p[i] are all the places. -/
theorem eq_moveBy {α : Type} {p : Perm} (h : IsBijection p) {x y : Vector α 24}
    (hmoved : ∀ i : Point, y[p[i].toNat]? = some x[i]) : y = moveBy p x := by
  refine Vector.ext fun j hj => Option.some.inj ?_
  obtain ⟨i, hi⟩ := h.surjective ⟨j, hj⟩
  obtain rfl := Fin.mk.inj hi
  rw [← Vector.getElem?_eq_getElem, ← Vector.getElem?_eq_getElem, hmoved, getElem?_moveBy h]

/-- Moving by a, then by b, is moving by `compose(a, b)` (R282). -/
theorem moveBy_moveBy {α : Type} {a b : Perm} (ha : IsBijection a) (hb : IsBijection b) (x : Vector α 24) :
    moveBy b (moveBy a x) = moveBy (compose a b) x := by
  refine eq_moveBy (isBijection_compose ha hb) fun i => ?_
  rw [compose_getElem ha]
  exact (getElem?_moveBy hb _ ⟨a[i].toNat, ha.1 i⟩).trans (congrArg some (moveBy_getElem ha x i))

theorem isBijection_idPerm : IsBijection idPerm := (validPerm_iff _).mp (by decide +kernel)

/-- The identity moves nothing. -/
theorem moveBy_idPerm {α : Type} (x : Vector α 24) : moveBy idPerm x = x := by
  refine (eq_moveBy isBijection_idPerm fun i => ?_).symm
  have hi : idPerm[i].toNat = i.val := by
    simp [idPerm, Nat.mod_eq_of_lt (show i.val < 32 by omega)]
  rw [hi]
  exact Vector.getElem?_eq_getElem i.isLt

/-- The grid with point i Selected and no other. -/
def oneSelected (i : Point) : Vector Cell 24 := (Vector.replicate 24 .unselected).set i .selected

theorem oneSelected_same (i : Point) : (oneSelected i)[i] = .selected := Vector.getElem_set_self i.isLt
theorem oneSelected_other {i : Point} {j : Nat} (hj : j < 24) (h : j ≠ i.val) : (oneSelected i)[j] = .unselected := by
  rw [oneSelected, Vector.getElem_set_ne _ _ h.symm, Vector.getElem_replicate]

/-- A bijection that moves point i changes the grid in which i alone is Selected. -/
theorem applyG_oneSelected_ne {p : Perm} (h : IsBijection p) {i : Point} (hi : p[i].toNat ≠ i.val) :
    applyG p (oneSelected i) ≠ oneSelected i := by
  intro heq
  have hmoved : (applyG p (oneSelected i))[p[i].toNat]'(h.1 i) = (oneSelected i)[i] := moveBy_getElem h _ i
  simp only [heq, oneSelected_other _ hi, oneSelected_same, reduceCtorEq] at hmoved

/-! ## The generators -/

theorem isBijection_of_gen {n : Nat} {g : Perm} (h : gen n = some g) : IsBijection g := by
  match n, h with
  | 1, rfl | 2, rfl | 3, rfl => exact (validPerm_iff _).mp (by decide +kernel)

/-- g1 has order 3 (R287). -/
theorem gen1_cubed : compose (compose gen1 gen1) gen1 = idPerm := by decide +kernel

/-- g2 and g3 are involutions that move point 6 (R287). -/
theorem exists_involution {n : Nat} (h : n = 2 ∨ n = 3) :
    ∃ g, gen n = some g ∧ compose g g = idPerm ∧ g[(6 : Point)].toNat ≠ 6 := by
  rcases h with rfl | rfl
  · exact ⟨gen2, rfl, by decide +kernel⟩
  · exact ⟨gen3, rfl, by decide +kernel⟩

/-! ## What the grid commands commit -/

/-- A command that assigns the grid alone completes with it, and leaves all other data (R322, R324). -/
theorem completed_of_setGrid {i : Instr} {s : State} {g : Vector Cell 24}
    (h : exec i s = complete i.opcode (.ok (s.setGrid g)) s) :
    ∃ t, exec i s = .next t ∧ Completed i.opcode 0#4 s t ∧ t.v = s.v ∧ t.p = s.p ∧ t.sres = s.sres ∧ t.grid = g :=
  ⟨_, h, ((SameControl.refl s).setGrid g).completed _, rfl, rfl, rfl, rfl⟩

/-- SEL and DESEL check their point first (R241, R242). -/
theorem exec_sel_ok {n : Nat} (h : n < 24) (s : State) :
    exec (.sel n) s = complete (Instr.sel n).opcode (.ok (s.setGrid (s.grid.set n .selected))) s := by
  simp only [exec, execSel, pointOperand_ok h]

theorem exec_desel_ok {n : Nat} (h : n < 24) (s : State) :
    exec (.desel n) s = complete (Instr.desel n).opcode (.ok (s.setGrid (s.grid.set n .unselected))) s := by
  simp only [exec, execDesel, pointOperand_ok h]

theorem exec_sel_error {n : Nat} (h : 24 ≤ n) (s : State) :
    exec (.sel n) s = complete (Instr.sel n).opcode (.error .invalidPattern) s := by
  simp only [exec, execSel, pointOperand_error h]

theorem exec_desel_error {n : Nat} (h : 24 ≤ n) (s : State) :
    exec (.desel n) s = complete (Instr.desel n).opcode (.error .invalidPattern) s := by
  simp only [exec, execDesel, pointOperand_error h]

/-- A command that assigns one cell c to the grid completes with it, and leaves the other cells and all other data. -/
theorem completed_of_setCell {i : Instr} {s : State} {n : Nat} {c : Cell} (hn : n < 24)
    (h : exec i s = complete i.opcode (.ok (s.setGrid (s.grid.set n c))) s) :
    ∃ t, exec i s = .next t ∧ Completed i.opcode 0#4 s t ∧ t.v = s.v ∧ t.p = s.p ∧ t.sres = s.sres ∧
      t.grid[n] = c ∧ ∀ j : Point, j.val ≠ n → t.grid[j] = s.grid[j] := by
  obtain ⟨t, ht, hc, hv, hp, hsres, hg⟩ := completed_of_setGrid h
  refine ⟨t, ht, hc, hv, hp, hsres, ?_, fun j hj => ?_⟩
  · rw [hg]
    exact Vector.getElem_set_self hn
  · rw [hg]
    exact Vector.getElem_set_ne hn j.isLt hj.symm

/-- GAPPLY of a generator moves the cells by it; any other number raises UnknownGenerator (R247). -/
theorem exec_gapply_ok {n : Nat} {g : Perm} (h : gen n = some g) (s : State) :
    exec (.gapply n) s = complete (Instr.gapply n).opcode (.ok (s.setGrid (applyG g s.grid))) s := by
  simp only [exec, execGapply, genOperand, h]

theorem exec_gapply_error {n : Nat} (h : n ≠ 1 ∧ n ≠ 2 ∧ n ≠ 3) (s : State) :
    exec (.gapply n) s = complete (Instr.gapply n).opcode (.error .unknownGenerator) s := by
  simp only [exec, execGapply, genOperand_error h]

/-- The grid after GAPPLY of a generator. -/
theorem gapply_grid {n : Nat} {g : Perm} (h : gen n = some g) (s : State) :
    ∃ t, exec (.gapply n) s = .next t ∧ t.grid = applyG g s.grid :=
  ⟨_, exec_gapply_ok h s, rfl⟩

/-- The grid after GAPPLY of the same generator twice. -/
theorem gapply_gapply_grid {n : Nat} {g : Perm} (h : gen n = some g) (s : State) :
    ∃ t u, exec (.gapply n) s = .next t ∧ exec (.gapply n) t = .next u ∧ t.grid = applyG g s.grid ∧
      u.grid = applyG (compose g g) s.grid := by
  obtain ⟨t, ht, htg⟩ := gapply_grid h s
  obtain ⟨u, hu, hug⟩ := gapply_grid h t
  refine ⟨t, u, ht, hu, htg, ?_⟩
  rw [hug, htg]
  exact moveBy_moveBy (isBijection_of_gen h) (isBijection_of_gen h) _

/-- GPERM checks its register first (R248, R284). -/
theorem exec_gperm_ok {s : State} {a : PReg} (h : IsBijection s.p[a]) :
    exec (.gperm a) s = complete (Instr.gperm a).opcode (.ok (s.setGrid (applyG s.p[a] s.grid))) s := by
  simp only [exec, execGperm, permOperand_ok h]

theorem exec_gperm_error {s : State} {a : PReg} (h : ¬ IsBijection s.p[a]) :
    exec (.gperm a) s = complete (Instr.gperm a).opcode (.error .invalidPattern) s := by
  simp only [exec, execGperm, permOperand_error h]

/-! ## The obligations -/

/-- Settles O47: one cell is written for a point in range, and none otherwise. -/
theorem selAndDesel : Obligations.SelAndDesel := by
  unfold Obligations.SelAndDesel
  intro s n
  refine ⟨fun h => ⟨?_, ?_⟩, fun h => ⟨?_, ?_⟩⟩
  · exact completed_of_setCell h (exec_sel_ok h s)
  · exact completed_of_setCell h (exec_desel_ok h s)
  · exact raises_of_error (exec_sel_error h s)
  · exact raises_of_error (exec_desel_error h s)

/-- Settles O51: the generators are bijections, and `apply_g` moves the cells by them. -/
theorem gapplyMovesTheCells : Obligations.GapplyMovesTheCells := by
  unfold Obligations.GapplyMovesTheCells
  intro s n
  refine ⟨fun h1 h3 => ?_, fun h => raises_of_error (exec_gapply_error (by omega) s)⟩
  obtain ⟨g, hgen⟩ : ∃ g, gen n = some g := by
    match n, h1, h3 with
    | 1, _, _ | 2, _, _ | 3, _, _ => exact ⟨_, rfl⟩
  obtain ⟨t, ht, hc, hv, hp, hsres, hg⟩ := completed_of_setGrid (exec_gapply_ok hgen s)
  refine ⟨g, t, hgen, ht, hc, hv, hp, hsres, fun i => ?_⟩
  rw [hg]
  exact getElem?_moveBy (isBijection_of_gen hgen) s.grid i

/-- Settles O52: the powers of the generators that are the identity restore every grid, and the lower powers all move
point 6, so they change the grid in which point 6 alone is Selected. -/
theorem generatorOrders : Obligations.GeneratorOrders := by
  unfold Obligations.GeneratorOrders
  have hbij : IsBijection gen1 := isBijection_of_gen (n := 1) rfl
  have hbij2 : IsBijection (compose gen1 gen1) := isBijection_compose hbij hbij
  refine ⟨fun s => ?_, fun s n hn => ?_, ?_, fun n hn => ?_⟩
  · obtain ⟨t, u, ht, hu, -, hug⟩ := gapply_gapply_grid (n := 1) rfl s
    obtain ⟨w, hw, hwg⟩ := gapply_grid (n := 1) rfl u
    refine ⟨t, u, w, ht, hu, hw, ?_⟩
    calc w.grid = applyG gen1 (applyG (compose gen1 gen1) s.grid) := by rw [hwg, hug]
      _ = applyG (compose (compose gen1 gen1) gen1) s.grid := moveBy_moveBy hbij2 hbij _
      _ = s.grid := by rw [gen1_cubed]; exact moveBy_idPerm _
  · obtain ⟨g, hgen, hsq, -⟩ := exists_involution hn
    obtain ⟨t, u, ht, hu, -, hug⟩ := gapply_gapply_grid hgen s
    refine ⟨t, u, ht, hu, ?_⟩
    rw [hug, hsq]
    exact moveBy_idPerm _
  · obtain ⟨t, u, ht, hu, htg, hug⟩ := gapply_gapply_grid (n := 1) rfl (State.reset.setGrid (oneSelected 6))
    refine ⟨_, t, u, ht, hu, ?_, ?_⟩
    · rw [htg]
      exact applyG_oneSelected_ne hbij (by decide +kernel)
    · rw [hug]
      exact applyG_oneSelected_ne hbij2 (by decide +kernel)
  · obtain ⟨g, hgen, -, hmoves⟩ := exists_involution hn
    obtain ⟨t, ht, htg⟩ := gapply_grid hgen (State.reset.setGrid (oneSelected 6))
    refine ⟨_, t, ht, ?_⟩
    rw [htg]
    exact applyG_oneSelected_ne (isBijection_of_gen hgen) hmoves

/-- Settles O53: the register's check, and `apply_g` for a bijection. -/
theorem gpermMovesTheCells : Obligations.GpermMovesTheCells := by
  unfold Obligations.GpermMovesTheCells
  intro s a
  refine ⟨fun h => ?_, fun h => raises_of_error (exec_gperm_error h)⟩
  obtain ⟨t, ht, hc, hv, hp, hsres, hg⟩ := completed_of_setGrid (exec_gperm_ok h)
  refine ⟨t, ht, hc, hv, hp, hsres, fun i => ?_⟩
  rw [hg]
  exact getElem?_moveBy h s.grid i

/-- Settles O46: NOP commits the state it finds, and GRST a grid of Unselected cells. -/
theorem nopAndGrst : Obligations.NopAndGrst := by
  unfold Obligations.NopAndGrst
  intro s
  constructor
  · exact ⟨_, rfl, (SameControl.refl s).completed _, ⟨rfl, rfl, rfl, rfl⟩⟩
  · obtain ⟨t, ht, hc, hv, hp, hsres, hg⟩ := completed_of_setGrid (i := .grst) (s := s) rfl
    refine ⟨t, ht, hc, hv, hp, hsres, fun i => ?_⟩
    rw [hg]
    exact Vector.getElem_replicate i.isLt

end Sys2Proof.Machine

/-! PROOFS. The family of 44_group.md: what PGEN, PID, PINV, PAPV and PTEST commit; the inverse as the table that composes to the
identity on either side (R283); the action on vectors as a permutation of the bits, linear and weight-keeping (R280); and the
automorphisms of the code (R285), closed under inversion because the code is finite. -/

namespace Sys2Proof.Machine

/-! ## The inverse (R283) -/

theorem idPerm_getElem (i : Point) : idPerm[i] = BitVec.ofNat 5 i.val := by simp [idPerm]

theorem toNat_idPerm (i : Point) : idPerm[i].toNat = i.val := by
  rw [idPerm_getElem, BitVec.toNat_ofNat, Nat.mod_eq_of_lt (show i.val < 2 ^ 5 by omega)]

/-- The inverse sends p[i] back to i. -/
theorem toNat_invert_image {p : Perm} (h : IsBijection p) (i : Point) :
    ((invert p)[p[i].toNat]'(h.1 i)).toNat = i.val := by
  rw [invert, moveBy_getElem h, toNat_idPerm]

theorem isBijection_invert {p : Perm} (h : IsBijection p) : IsBijection (invert p) := by
  refine ⟨fun j => ?_, fun j j' hjj' => ?_⟩
  · obtain ⟨i, rfl⟩ := h.surjective j
    exact (toNat_invert_image h i).trans_lt i.isLt
  · obtain ⟨i, rfl⟩ := h.surjective j
    obtain ⟨i', rfl⟩ := h.surjective j'
    have hval : i.val = i'.val := by
      rw [← toNat_invert_image h i, ← toNat_invert_image h i']
      exact congrArg BitVec.toNat hjj'
    rw [Fin.ext hval]

/-- A table all of whose points stay is the identity. -/
theorem eq_idPerm {p : Perm} (h : ∀ i : Point, p[i].toNat = i.val) : p = idPerm :=
  Vector.ext fun i hi => BitVec.eq_of_toNat_eq ((h ⟨i, hi⟩).trans (toNat_idPerm ⟨i, hi⟩).symm)

/-- First p, then its inverse. -/
theorem compose_invert {p : Perm} (h : IsBijection p) : compose p (invert p) = idPerm := by
  refine eq_idPerm fun i => ?_
  rw [compose_getElem h]
  exact toNat_invert_image h i

/-- First the inverse, then p: every point is some p[i], which the inverse sends to i. -/
theorem invert_compose {p : Perm} (h : IsBijection p) : compose (invert p) p = idPerm := by
  refine eq_idPerm fun j => ?_
  obtain ⟨i, rfl⟩ := h.surjective j
  rw [compose_getElem (isBijection_invert h)]
  have hback := toNat_invert_image h i
  simp only [Fin.getElem_fin] at hback ⊢
  simp only [hback]

/-! ## The action on vectors (R280) -/

/-- Point i moves to point p[i]. -/
theorem getLsbD_applyV_image {p : Perm} (h : IsBijection p) (v : Vec) (i : Point) :
    (applyV p v).getLsbD p[i].toNat = v.getLsbD i := by
  rw [getLsbD_applyV, Bool.eq_iff_iff, List.any_eq_true]
  constructor
  · rintro ⟨k, -, hk⟩
    rw [Bool.and_eq_true, decide_eq_true_eq] at hk
    obtain ⟨hbit, hki, -⟩ := hk
    rwa [← h.2 k i (BitVec.eq_of_toNat_eq hki)]
  · intro hi
    exact ⟨i, List.mem_finRange i, by rw [hi, Bool.true_and]; exact decide_eq_true ⟨rfl, h.1 i⟩⟩

/-- The points p[i] are all the points, so the bits there are all the bits. -/
theorem IsBijection.vec_ext {p : Perm} (h : IsBijection p) {u w : Vec}
    (hbits : ∀ i : Point, u.getLsbD p[i].toNat = w.getLsbD p[i].toNat) : u = w := by
  refine BitVec.eq_of_getLsbD_eq fun j hj => ?_
  obtain ⟨i, hi⟩ := h.surjective ⟨j, hj⟩
  obtain rfl := Fin.mk.inj hi
  exact hbits i

theorem applyV_xor {p : Perm} (h : IsBijection p) (u w : Vec) : applyV p (u ^^^ w) = applyV p u ^^^ applyV p w :=
  h.vec_ext fun i => by simp only [BitVec.getLsbD_xor, getLsbD_applyV_image h]

theorem applyV_idPerm (v : Vec) : applyV idPerm v = v :=
  isBijection_idPerm.vec_ext fun i => by rw [getLsbD_applyV_image isBijection_idPerm, toNat_idPerm]

/-- Acting with a, then with b, is acting with `compose(a, b)` (R282). -/
theorem applyV_applyV {a b : Perm} (ha : IsBijection a) (hb : IsBijection b) (v : Vec) :
    applyV b (applyV a v) = applyV (compose a b) v := by
  refine (isBijection_compose ha hb).vec_ext fun i => ?_
  rw [getLsbD_applyV_image (isBijection_compose ha hb), compose_getElem ha]
  exact (getLsbD_applyV_image hb _ ⟨a[i].toNat, ha.1 i⟩).trans (getLsbD_applyV_image ha v i)

theorem applyV_invert_applyV {p : Perm} (h : IsBijection p) (v : Vec) : applyV (invert p) (applyV p v) = v := by
  rw [applyV_applyV h (isBijection_invert h), compose_invert h, applyV_idPerm]

/-- The images of the points are the points in another order. -/
theorem IsBijection.map_points_perm {p : Perm} (h : IsBijection p) :
    (points.map fun i => p[i].toNat).Perm (List.range 24) := by
  rw [List.perm_ext_iff_of_nodup]
  · intro j
    rw [List.mem_range, List.mem_map]
    constructor
    · rintro ⟨i, -, rfl⟩
      exact h.1 i
    · intro hj
      obtain ⟨i, hi⟩ := h.surjective ⟨j, hj⟩
      exact ⟨i, List.mem_finRange i, (Fin.mk.inj hi).symm⟩
  · exact (List.nodup_finRange 24).map fun i i' hii' => h.2 i i' (BitVec.eq_of_toNat_eq hii')
  · exact List.nodup_range

/-- The action keeps the weight: counted along the images, the bits of the image are those of v. -/
theorem popcount_applyV {p : Perm} (h : IsBijection p) (v : Vec) : popcount (applyV p v) = popcount v := by
  calc popcount (applyV p v) = (points.map fun i => p[i].toNat).countP (applyV p v).getLsbD := by
        rw [popcount_eq_countP, h.map_points_perm.countP_eq]
    _ = points.countP fun i : Point => v.getLsbD i := by
        rw [List.countP_map]
        exact List.countP_congr fun i _ => by rw [Function.comp_apply, getLsbD_applyV_image h]
    _ = popcount v := by
        rw [popcount_eq_countP, ← List.map_coe_finRange_eq_range, List.countP_map]
        rfl

/-! ## The automorphisms of the code (R285) -/

/-- The test on the basis words is the property of all codewords, since the action is linear. -/
theorem isAut_iff (p : Perm) : isAut p = true ↔ IsBijection p ∧ ∀ c, InCode c → InCode (applyV p c) := by
  rw [isAut, Bool.and_eq_true, validPerm_iff, List.all_eq_true]
  refine and_congr_right fun h => ⟨?_, fun hcode b hb => ?_⟩
  · rintro hbasis c ⟨d, rfl⟩
    refine golayEncode_closed (p := fun c => InCode (applyV p c)) (fun u w hu hw => ?_) (fun k => ?_) d
    · rw [applyV_xor h]
      exact hu.xor hw
    · exact (isCodeword_iff_inCode _).mp (hbasis _ (by simp))
  · obtain ⟨k, hk, rfl⟩ := List.getElem_of_mem hb
    have hk12 : k < 12 := by simpa using hk
    rw [isCodeword_iff_inCode]
    exact hcode _ ((isCodeword_iff_inCode _).mp (isCodeword_basis ⟨k, hk12⟩))

theorem isAut_of_gen {n : Nat} {g : Perm} (h : gen n = some g) : isAut g = true := by
  match n, h with
  | 1, rfl | 2, rfl | 3, rfl => decide +kernel

theorem isAut_compose {a b : Perm} (ha : isAut a = true) (hb : isAut b = true) : isAut (compose a b) = true := by
  rw [isAut_iff] at *
  refine ⟨isBijection_compose ha.1 hb.1, fun c hc => ?_⟩
  rw [← applyV_applyV ha.1 hb.1]
  exact hb.2 _ (ha.2 c hc)

/-- An automorphism is injective on the code, which is finite, so every codeword is the image of one. -/
theorem exists_inCode_applyV {p : Perm} (h : isAut p = true) {c : Vec} (hc : InCode c) : ∃ b, InCode b ∧ applyV p b = c := by
  obtain ⟨hbij, hcode⟩ := (isAut_iff p).mp h
  have : Finite Vec := Finite.of_injective BitVec.toFin fun _ _ => BitVec.eq_of_toFin_eq
  have hinj : Function.Injective (applyV p) := Function.LeftInverse.injective (applyV_invert_applyV hbij)
  obtain ⟨⟨b, hb⟩, hbc⟩ := Finite.surjective_of_injective (Subtype.map_injective hcode hinj) ⟨c, hc⟩
  exact ⟨b, hb, Subtype.mk.inj hbc⟩

theorem isAut_invert {p : Perm} (h : isAut p = true) : isAut (invert p) = true := by
  have hbij := ((isAut_iff p).mp h).1
  refine (isAut_iff _).mpr ⟨isBijection_invert hbij, fun c hc => ?_⟩
  obtain ⟨b, hb, rfl⟩ := exists_inCode_applyV h hc
  rwa [applyV_invert_applyV hbij]

/-! ## The generators (R286) -/

/-- g1 turns each row by two columns. -/
theorem gen1_image : ∀ i : Point, gen1[i].toNat = 6 * (i.val / 6) + (i.val % 6 + 2) % 6 := by decide +kernel

/-- g2 swaps the last two rows and the first two columns. -/
theorem gen2_image : ∀ i : Point, gen2[i].toNat = 6 * swapBy [(2, 3)] (i.val / 6) + swapBy [(0, 1)] (i.val % 6) := by
  decide +kernel

/-- g3 is eight transpositions. -/
theorem gen3_image : ∀ i : Point, gen3[i].toNat =
    swapBy [(5, 6), (7, 10), (8, 16), (9, 22), (12, 18), (13, 21), (14, 19), (15, 20)] i.val := by decide +kernel

/-! ## What the group commands commit -/

/-- A command that assigns P[d] alone completes with it, and leaves all other data (R322, R324). -/
theorem completed_of_setP {i : Instr} {s : State} {d : PReg} {q : Perm}
    (h : exec i s = complete i.opcode (.ok (s.setP d q)) s) :
    ∃ t, exec i s = .next t ∧ Completed i.opcode 0#4 s t ∧ t.v = s.v ∧ OtherP d s t ∧ t.sres = s.sres ∧ t.grid = s.grid ∧
      t.p[d] = q :=
  ⟨_, h, ((SameControl.refl s).setP d q).completed _, rfl, otherP_setP s d q, rfl, rfl, getElem_setP_same s d q⟩

/-- PGEN of a generator loads it; any other number raises UnknownGenerator (R290). -/
theorem exec_pgen_ok {n : Nat} {g : Perm} (h : gen n = some g) (d : PReg) (s : State) :
    exec (.pgen d n) s = complete (Instr.pgen d n).opcode (.ok (s.setP d g)) s := by
  simp only [exec, execPgen, genOperand, h]

theorem exec_pgen_error {n : Nat} (h : n ≠ 1 ∧ n ≠ 2 ∧ n ≠ 3) (d : PReg) (s : State) :
    exec (.pgen d n) s = complete (Instr.pgen d n).opcode (.error .unknownGenerator) s := by
  simp only [exec, execPgen, genOperand_error h]

/-- PINV and PAPV check their register first (R284, R293, R294). -/
theorem exec_pinv_ok {s : State} {a : PReg} (h : IsBijection s.p[a]) (d : PReg) :
    exec (.pinv d a) s = complete (Instr.pinv d a).opcode (.ok (s.setP d (invert s.p[a]))) s := by
  simp only [exec, execPinv, permOperand_ok h]

theorem exec_pinv_error {s : State} {a : PReg} (h : ¬ IsBijection s.p[a]) (d : PReg) :
    exec (.pinv d a) s = complete (Instr.pinv d a).opcode (.error .invalidPattern) s := by
  simp only [exec, execPinv, permOperand_error h]

theorem exec_papv_ok {s : State} {a : PReg} (h : IsBijection s.p[a]) (d b : VReg) :
    exec (.papv d a b) s = complete (Instr.papv d a b).opcode (.ok (s.setV d (applyV s.p[a] s.v[b]))) s := by
  simp only [exec, execPapv, permOperand_ok h, getV_eq]

theorem exec_papv_error {s : State} {a : PReg} (h : ¬ IsBijection s.p[a]) (d b : VReg) :
    exec (.papv d a b) s = complete (Instr.papv d a b).opcode (.error .invalidPattern) s := by
  simp only [exec, execPapv, permOperand_error h]

/-- The fields of PTEST's result (R295). -/
theorem ptestWord_fields (q : Perm) : (ptestWord q).getLsbD 0 = validPerm q ∧ (ptestWord q).getLsbD 1 = isAut q ∧
    (ptestWord q).extractLsb' 2 30 = 0#30 := by
  rw [ptestWord]
  cases isAut q <;> cases validPerm q <;> decide

/-- PGEN of a generator, with what is left unchanged; its table is given entry by entry. -/
theorem pgen_completes {n : Nat} {g : Perm} (h : gen n = some g) {image : Point → Nat}
    (himage : ∀ i : Point, g[i].toNat = image i) (s : State) (d : PReg) :
    ∃ t, exec (.pgen d n) s = .next t ∧ Completed 0x40#8 0#4 s t ∧ t.v = s.v ∧ OtherP d s t ∧ t.sres = s.sres ∧
      t.grid = s.grid ∧ ∀ i : Point, ((t.p[d])[i]).toNat = image i := by
  obtain ⟨t, ht, hc, hv, hp, hsres, hg, hd⟩ := completed_of_setP (exec_pgen_ok h d s)
  exact ⟨t, ht, hc, hv, hp, hsres, hg, by rwa [hd]⟩

/-! ## The obligations -/

/-- Settles O54: the three tables are those R286 describes, and PID's entries are their places. -/
theorem pgenAndPid : Obligations.PgenAndPid := by
  unfold Obligations.PgenAndPid
  intro s d
  refine ⟨pgen_completes rfl gen1_image s d, pgen_completes rfl gen2_image s d, pgen_completes rfl gen3_image s d,
    fun n h1 h2 h3 => raises_of_error (exec_pgen_error ⟨h1, h2, h3⟩ d s), ?_⟩
  obtain ⟨t, ht, hc, hv, hp, hsres, hg, hd⟩ := completed_of_setP (i := .pid d) (s := s) rfl
  exact ⟨t, ht, hc, hv, hp, hsres, hg, by rw [hd]; exact toNat_idPerm⟩

/-- Settles O56: the two outcomes of PINV, and the inverse entry by entry. -/
theorem pinvInverts : Obligations.PinvInverts := by
  unfold Obligations.PinvInverts
  intro s d a
  refine ⟨fun h => ?_, fun h => raises_of_error (exec_pinv_error h d)⟩
  obtain ⟨t, ht, hc, hv, hp, hsres, hg, hd⟩ := completed_of_setP (exec_pinv_ok h d)
  refine ⟨t, ht, hc, hv, hp, hsres, hg, ?_⟩
  rw [hd]
  refine ⟨isBijection_invert h, fun i => ?_⟩
  rw [← idPerm_getElem]
  exact getElem?_moveBy h idPerm i

/-- Settles O57: PINV leaves P[a] and writes its inverse to P[d], and the two compose to the identity in either order. -/
theorem inverseComposesToTheIdentity : Obligations.InverseComposesToTheIdentity := by
  unfold Obligations.InverseComposesToTheIdentity
  intro s d a e h hda
  obtain ⟨t, ht, -, -, hother, -, -, hd⟩ := completed_of_setP (exec_pinv_ok h d)
  have ha : t.p[a] = s.p[a] := hother a hda.symm
  have hbij : IsBijection t.p[a] := by rwa [ha]
  have hbij' : IsBijection t.p[d] := by rw [hd]; exact isBijection_invert h
  obtain ⟨u, hu, -, -, -, -, -, hue⟩ := completed_of_setP (exec_pcomp_ok hbij hbij' e)
  obtain ⟨w, hw, -, -, -, -, -, hwe⟩ := completed_of_setP (exec_pcomp_ok hbij' hbij e)
  refine ⟨t, u, w, ht, hu, hw, ?_, ?_⟩
  · rw [hue, ha, hd, compose_invert h]
    exact toNat_idPerm
  · rw [hwe, ha, hd, invert_compose h]
    exact toNat_idPerm

/-- Settles O58: the register's check, and the action of a bijection on a vector. -/
theorem papvMovesThePoints : Obligations.PapvMovesThePoints := by
  unfold Obligations.PapvMovesThePoints
  intro s d a b
  refine ⟨fun h => ?_, fun h => raises_of_error (exec_papv_error h d b)⟩
  obtain ⟨t, ht, hc, hv, hp, hsres, hg, hd⟩ := completed_of_setV (exec_papv_ok h d b)
  refine ⟨t, ht, hc, hv, hp, hsres, hg, ?_⟩
  rw [hd]
  exact ⟨getLsbD_applyV_image h s.v[b], popcount_applyV h s.v[b]⟩

/-- Settles O59: the two tests are the properties of R284 and R285. -/
theorem ptestTestsThePermutation : Obligations.PtestTestsThePermutation := by
  unfold Obligations.PtestTestsThePermutation
  intro s a
  obtain ⟨t, ht, hc, hsres, hv, hp, hg⟩ := completed_of_setSres (i := .ptest a) (s := s) rfl
  obtain ⟨hbij, haut, hhigh⟩ := ptestWord_fields s.p[a]
  rw [← getP_eq, ← hsres] at hbij haut hhigh
  refine ⟨t, ht, hc, hv, hp, hg, ?_, ?_, hhigh⟩
  · rw [hbij]
    exact validPerm_iff s.p[a]
  · rw [haut]
    exact isAut_iff s.p[a]

/-- Settles O60: composites and inverses of automorphisms are automorphisms, and PCOMP and PINV commit them. -/
theorem automorphismsAreClosed : Obligations.AutomorphismsAreClosed := by
  unfold Obligations.AutomorphismsAreClosed
  refine ⟨fun n g => isAut_of_gen, fun s d a b ha hb => ?_⟩
  have hbij := ((isAut_iff _).mp ha).1
  obtain ⟨t, ht, -, -, -, -, -, htd⟩ := completed_of_setP (exec_pcomp_ok hbij ((isAut_iff _).mp hb).1 d)
  obtain ⟨u, hu, -, -, -, -, -, hud⟩ := completed_of_setP (exec_pinv_ok hbij d)
  refine ⟨t, u, ht, ?_, hu, ?_⟩
  · rw [htd]
    exact isAut_compose ha hb
  · rw [hud]
    exact isAut_invert ha

end Sys2Proof.Machine

/-! PROOFS. The family of 60_exceptions.md: a completion that reports an error raised it and committed nothing (R322), and a pending
command completes or is discarded by a reset, one step's case at a time (R372). -/

namespace Sys2Proof.Machine

/-! ## A completion that reports an error -/

/-- A command that reports a nonzero code raised it (R322): a commit reports 0. -/
theorem raised_of_exec {i : Instr} {s t : State} (h : exec i s = .next t) (hne : t.errCode ≠ 0#4) :
    ∃ e, t = s.raise i.opcode e := by
  rcases exec_assigns h with ⟨u, -, rfl⟩ | hraise
  · exact absurd rfl hne
  · exact hraise

/-- The completion of any word, legal or not, that reports a nonzero code raised it (R321, R322). -/
theorem raised_of_completionStep {w : Word} {s t : State} (h : completionStep w s = .next t) (hne : t.errCode ≠ 0#4) :
    ∃ e, t = s.raise (opField w) e := by
  rcases completionStep_cases w s with ⟨i, hi, hexec⟩ | ⟨-, hill⟩
  · have hop : i.opcode = opField w := decode_opcode hi
    rw [← hop]
    exact raised_of_exec (hexec.symm.trans h) hne
  · have ht : s.raise (opField w) .illegalCommand = t := by simpa [hill] using h
    exact ⟨_, ht.symm⟩

/-! ## The steps of a pending command -/

/-- A host statement run while a command is pending is a reset of the core (R360, R361), or it leaves the command pending and
accepts no other (R38). -/
theorem runStmt_resets_or_keeps_pend {st : HostStmt} {s t : State} (hb : s.busy = true) (h : runStmt st s = .next t) :
    ((st = .powerReset ∨ ∃ x : Word, x.getLsbD 0 = true ∧ st = .wr 4 0x004#12 x) ∧ t = s.resetCore.advance) ∨
      (t.pend = s.pend ∧ t.issued = s.issued) := by
  rcases runStmt_cases h with ⟨off, -, rfl⟩ | ⟨off, x, rfl, rfl⟩ | ⟨n, rfl⟩ | ⟨rfl, rfl⟩
  · exact .inr ⟨rfl, rfl⟩
  · rcases busWrite_busy hb off x with ⟨rfl, hx, hreset⟩ | hkept
    · exact .inl ⟨.inr ⟨x, hx, rfl⟩, by rw [hreset]⟩
    · exact .inr ⟨hkept.pend, hkept.issued⟩
  · exact .inr ⟨rfl, rfl⟩
  · exact .inl ⟨.inl rfl, rfl⟩

/-- Every way a step can go while a command is pending (R81, R372): the command's completion, a reset of the core, or a host
statement that only brings the completion one step nearer. -/
theorem step_of_pending {s t : State} {q : Pending} (hq : s.pend = some q) (hs : step s = .next t) :
    ((s.due q ∧ ∃ code, Completed (q.word.extractLsb' 0 8) code s t) ∨ (s.ResetNext ∧ t = s.resetCore.advance)) ∨
      (q.delay ≠ 0 ∧ t.pend = some { q with delay := q.delay - 1 } ∧ t.issued = s.issued) := by
  rcases step_cases s with ⟨hidle, -, -⟩ | ⟨st, hidle, -, -⟩ | ⟨q', hq', hdue, -⟩ | ⟨q', st, hq', hdelay, -, hn, e⟩
  · simp [hidle] at hq
  · simp [hidle] at hq
  · obtain rfl : q' = q := Option.some.inj (hq'.symm.trans hq)
    obtain ⟨code, -, hc⟩ := completed_of_due ⟨hq, hdue⟩ hs
    exact .inl (.inl ⟨⟨hq, hdue⟩, code, hc⟩)
  · obtain rfl : q' = q := Option.some.inj (hq'.symm.trans hq)
    rcases runStmt_resets_or_keeps_pend (s := s.tick) (by simp [hq]) (e.symm.trans hs) with ⟨hreset, rfl⟩ | ⟨hp, hissued⟩
    · rcases hreset with rfl | ⟨x, hx, rfl⟩
      · exact .inl (.inr ⟨.inl hn, rfl⟩)
      · exact .inl (.inr ⟨.inr ⟨x, hx, hn⟩, rfl⟩)
    · exact .inr ⟨hdelay, hp.trans (by simp [hq]), hissued⟩

/-! ## The obligations -/

/-- Settles O9: a completion that reports a nonzero code raised it, and `raise` writes the completion fields alone. -/
theorem errorsCommitNothing : Obligations.ErrorsCommitNothing := by
  unfold Obligations.ErrorsCommitNothing
  intro s t q hdue hs hne
  obtain ⟨e, rfl⟩ := raised_of_completionStep ((step_of_due hdue).symm.trans hs) hne
  obtain ⟨hc, hdata⟩ := raise_completed s (opField q.word) e
  exact ⟨hdata, hc⟩

/-- Settles O11, by strong induction on the delay: each step ends the wait or lowers the delay of the same command. -/
theorem pendingCommandCompletes : Obligations.PendingCommandCompletes := by
  unfold Obligations.PendingCommandCompletes
  intro s q hq hclean
  induction hn : q.delay using Nat.strong_induction_on generalizing s q with
  | _ n ih =>
    obtain ⟨t, hs, hclean'⟩ := cleanProgramsNeverStop s hclean
    rcases step_of_pending hq hs with hend | ⟨hdelay, ht, hissued⟩
    · exact ⟨0, s, q, t, Nat.zero_le n, rfl, hq, rfl, rfl, hs, hend⟩
    · obtain ⟨k, u, r, v, hk, hreach, hr, hword, hu, hv, hend⟩ := ih (q.delay - 1) (by omega) t _ ht hclean' rfl
      exact ⟨k + 1, u, r, v, by omega, ⟨t, hs, hreach⟩, hr, hword, hu.trans hissued, hv, hend⟩

end Sys2Proof.Machine

/-! PROOFS. The family of 70_reset_and_hazards.md: the step at a due state is the pending command's execution (R370). -/

namespace Sys2Proof.Machine

/-- The completion step of a legal word runs the command it decodes to (R370). -/
theorem completionStep_of_decode {w : Word} {i : Instr} (h : decode w = some i) (s : State) :
    completionStep w s = exec i s := by
  simp only [completionStep, h]

/-- Settles O6: a due step is the completion of the pending word, and that of a legal word is its command's execution. -/
theorem stepRunsThePendingCommand : Obligations.StepRunsThePendingCommand := by
  unfold Obligations.StepRunsThePendingCommand
  intro s q i hdue hi
  calc step s = completionStep q.word s := step_of_due hdue
    _ = exec i s := completionStep_of_decode hi s

end Sys2Proof.Machine
